-- ==== Sys2Proof/Word.lean ====
section
/-! DEFINITION. The word types of the block (00_scope.md R7): bytes, words and sectors. -/

namespace Sys2Proof

/-- A byte is 8 bits (R7). -/
abbrev Byte := BitVec 8

/-- A word is 16 bits (R7). -/
abbrev Word := BitVec 16

/-- A sector is 256 words (R7). -/
abbrev Sector := Vector Word 256

end Sys2Proof
end

