-- ==== Sys2Proof/Config.lean ====
section
/-! DEFINITION. What an instance is created with (00_scope.md R8) and the values the spec leaves free. -/

namespace Sys2Proof

/-- The two drives of a controller (R7). The device code of drive d is d (R101). -/
inductive DriveNo where
  | drive0
  | drive1
deriving DecidableEq, Repr

/-- `VARIANT` (R2): the two variants differ only in the handling of the expansion ROM (R353, R358). -/
inductive Variant where
  | adapter
  | integrated
deriving DecidableEq, Repr

/-- `ZERO_DELAY` (R8, R204): what arming the clock with delay 0 does. -/
inductive ZeroDelay where
  | disarm
  | fireNext
deriving DecidableEq, Repr

/-- A two-word error code, words 1 and 2 of an error report (R115). -/
structure ErrorCode where
  first  : Word
  second : Word
deriving DecidableEq, Repr, Inhabited

/-- The creation arguments of an instance (R8). They are plain data of the state, so that a statement about
every state is a statement about every choice of them; no step changes them. -/
structure Params where
  variant            : Variant
  /-- `IO_BASE` (R8, R79). The spec gives it no width: 16 bits is a DESIGN CHOICE, log entry 21. -/
  ioBase             : BitVec 16
  irqLineNo          : Nat
  tBase              : Nat
  tReset             : Nat
  tXfer              : Nat
  zeroDelay          : ZeroDelay
  deviceStatusWord   : Word
  adapterConfigWords : Vector Word 5
  driveConfigW1      : Word
  errUnsupported     : ErrorCode
  errRbaRange        : ErrorCode
  errDefective       : ErrorCode
  adapterId          : Byte × Byte
deriving DecidableEq, Repr

/-- `ERR_NOT_PRESENT` is fixed by the source (R8, R236). -/
def Config.errNotPresent : ErrorCode := ⟨0x0C11, 0x000B⟩

/-- `ERR_DEFECTIVE` is OPEN with no default (R8, R115): a free value, log entry 9. -/
opaque Config.errDefective : ErrorCode

/-- The storage's read-time estimator `ReadTime(d, lba, n)` (R215): an oracle function, log entry 11. -/
opaque Config.readTime : DriveNo → BitVec 32 → Nat → Nat

/-- The storage's write-time estimator `WriteTime(d, lba, n)` (R215): an oracle function, log entry 11. -/
opaque Config.writeTime : DriveNo → BitVec 32 → Nat → Nat

/-- The storage's seek-time estimator `SeekTime(d, lba)` (R215): an oracle function, log entry 11. -/
opaque Config.seekTime : DriveNo → BitVec 32 → Nat

/-- What the host bus returns on a read that does not reach the block (R80, D42): a free value for each
draw, log entry 12. -/
opaque Config.hostBus : Nat → Word

/-- `RomMapped()` under the OPEN parameter `ROM_DECODE` of configuration byte 3 (R353, D40), log entry 11. -/
opaque Config.romMapped : Byte → Bool

/-- The defaults of R8. DESIGN CHOICE and PRESUMED, log entry 8 (unsafe): the spec marks most of them
"from general knowledge, not in source". Times are in units of 1/8 microsecond, log entry 10. -/
def Config.defaults : Params where
  variant            := .adapter
  ioBase             := 0x3510
  irqLineNo          := 14
  tBase              := 4096
  tReset             := 204800
  tXfer              := 3125
  zeroDelay          := .disarm
  deviceStatusWord   := 0x1900
  adapterConfigWords := #v[0x0000, 0x3200, 0x0000, 0x0000, 0x0000]
  driveConfigW1      := 0x0010
  errUnsupported     := ⟨0x0F03, 0x0002⟩
  errRbaRange        := ⟨0x0E01, 0x0007⟩
  errDefective       := Config.errDefective
  adapterId          := (0xFF, 0xDD)

end Sys2Proof
end

