-- ==== Sys2Proof/Syntax.lean ====
section
/-! DEFINITION. The instructions: one constructor for every row of spec/opcode_table.json, in its order. -/

namespace Sys2Proof

/-- One constructor a row. A PORT write carries the data it moves (8 or 16 bits, R75); an ATTN row carries its
free request field, where it has one (bit 4 is ignored, R102); a CMD0 row carries the four-word flag and, where
the row leaves it free, the device field of command word 0 (R107); a CFGOP row carries the index and the byte. -/
inductive Instr where
  -- Host port accesses (R117, R140).
  | rdSir
  | wrCir (v : Word)
  | rdStatus
  | wrCtrl (v : Byte)
  | rdIsr
  | wrAttn (v : Byte)
  | unwiredRB0
  | unwiredRB1
  | unwiredRB4
  | unwiredRB5
  | unwiredRB6
  | unwiredRB7
  | unwiredRW1
  | unwiredRW2
  | unwiredRW3
  | unwiredRW4
  | unwiredRW5
  | unwiredRW6
  | unwiredRW7
  | unwiredWB0 (v : Byte)
  | unwiredWB1 (v : Byte)
  | unwiredWB4 (v : Byte)
  | unwiredWB5 (v : Byte)
  | unwiredWB6 (v : Byte)
  | unwiredWB7 (v : Byte)
  | unwiredWW1 (v : Word)
  | unwiredWW2 (v : Word)
  | unwiredWW3 (v : Word)
  | unwiredWW4 (v : Word)
  | unwiredWW5 (v : Word)
  | unwiredWW6 (v : Word)
  | unwiredWW7 (v : Word)
  -- Attention bytes (R102, R103).
  | attnCmdreqAD
  | attnEoiAD
  | attnCmdreqD0
  | attnEoiD0
  | attnCmdreqD1
  | attnEoiD1
  | attnResetAD
  | attnBaddev2 (req : BitVec 4)
  | attnBaddev3 (req : BitVec 4)
  | attnBaddev4 (req : BitVec 4)
  | attnBaddev5 (req : BitVec 4)
  | attnBaddev6 (req : BitVec 4)
  | attnBadreqAD_0
  | attnBadreqAD_3
  | attnBadreqAD_5
  | attnBadreqAD_6
  | attnBadreqAD_7
  | attnBadreqAD_8
  | attnBadreqAD_9
  | attnBadreqAD_A
  | attnBadreqAD_B
  | attnBadreqAD_C
  | attnBadreqAD_D
  | attnBadreqAD_E
  | attnBadreqAD_F
  | attnBadreqD0_0
  | attnBadreqD0_3
  | attnBadreqD0_4
  | attnBadreqD0_5
  | attnBadreqD0_6
  | attnBadreqD0_7
  | attnBadreqD0_8
  | attnBadreqD0_9
  | attnBadreqD0_A
  | attnBadreqD0_B
  | attnBadreqD0_C
  | attnBadreqD0_D
  | attnBadreqD0_E
  | attnBadreqD0_F
  | attnBadreqD1_0
  | attnBadreqD1_3
  | attnBadreqD1_4
  | attnBadreqD1_5
  | attnBadreqD1_6
  | attnBadreqD1_7
  | attnBadreqD1_8
  | attnBadreqD1_9
  | attnBadreqD1_A
  | attnBadreqD1_B
  | attnBadreqD1_C
  | attnBadreqD1_D
  | attnBadreqD1_E
  | attnBadreqD1_F
  -- Firings with a command in execution (R107, R111, R112, R202).
  | read (four : Bool) (dev : BitVec 3)
  | write (four : Bool) (dev : BitVec 3)
  | readVerify (four : Bool) (dev : BitVec 3)
  | writeVerify (four : Bool) (dev : BitVec 3)
  | seek (four : Bool) (dev : BitVec 3)
  | parkHeads (four : Bool) (dev : BitVec 3)
  | getDeviceStatus (four : Bool) (dev : BitVec 3)
  | getDeviceConfigAdapter (four : Bool)
  | getDeviceConfigDrive0 (four : Bool)
  | getDeviceConfigDrive1 (four : Bool)
  | getPositionInfo (four : Bool) (dev : BitVec 3)
  | sectorBufferWrite (four : Bool) (dev : BitVec 3)
  | sectorBufferRead (four : Bool) (dev : BitVec 3)
  | diagnostic (four : Bool) (dev : BitVec 3)
  | formatUnit (four : Bool) (dev : BitVec 3)
  | formatPrepare (four : Bool) (dev : BitVec 3)
  | unrecognized00 (four : Bool) (dev : BitVec 3)
  | unrecognized07 (four : Bool) (dev : BitVec 3)
  | unrecognized0B (four : Bool) (dev : BitVec 3)
  | unrecognized0C (four : Bool) (dev : BitVec 3)
  | unrecognized0D (four : Bool) (dev : BitVec 3)
  | unrecognized0E (four : Bool) (dev : BitVec 3)
  | unrecognized0F (four : Bool) (dev : BitVec 3)
  | unrecognized13 (four : Bool) (dev : BitVec 3)
  | unrecognized14 (four : Bool) (dev : BitVec 3)
  | unrecognized15 (four : Bool) (dev : BitVec 3)
  | unrecognized18 (four : Bool) (dev : BitVec 3)
  | unrecognized19 (four : Bool) (dev : BitVec 3)
  | unrecognized1A (four : Bool) (dev : BitVec 3)
  | unrecognized1B (four : Bool) (dev : BitVec 3)
  | unrecognized1C (four : Bool) (dev : BitVec 3)
  | unrecognized1D (four : Bool) (dev : BitVec 3)
  | unrecognized1E (four : Bool) (dev : BitVec 3)
  | unrecognized1F (four : Bool) (dev : BitVec 3)
  -- Configuration calls (R120, R350).
  | cfgRead (i : BitVec 3)
  | cfgWriteIgnored (i : BitVec 3) (v : Byte)
  | cfgWrite23 (i : BitVec 3) (v : Byte)
  | cfgWrite47 (i : BitVec 3) (v : Byte)
  | cfgFeedback
  | cfgReset
deriving DecidableEq, Repr

end Sys2Proof
end

