-- ==== Sys2Proof/WellFormed.lean ====
section
/-! DEFINITION. Which terms are encodings the spec admits. -/

namespace Sys2Proof

/-- A device field that names a target: 7, 0 or 1 (R101). -/
def namesTarget (dev : BitVec 3) : Bool := dev == 7#3 || dev == 0#3 || dev == 1#3

/-- The checks: the device field of a command names a target (R101, R116), and a configuration write has an index of its
row (R120). Every other field admits every value. -/
def Instr.wf : Instr → Bool
  | .rdSir => true
  | .wrCir _ => true
  | .rdStatus => true
  | .wrCtrl _ => true
  | .rdIsr => true
  | .wrAttn _ => true
  | .unwiredRB0 => true
  | .unwiredRB1 => true
  | .unwiredRB4 => true
  | .unwiredRB5 => true
  | .unwiredRB6 => true
  | .unwiredRB7 => true
  | .unwiredRW1 => true
  | .unwiredRW2 => true
  | .unwiredRW3 => true
  | .unwiredRW4 => true
  | .unwiredRW5 => true
  | .unwiredRW6 => true
  | .unwiredRW7 => true
  | .unwiredWB0 _ => true
  | .unwiredWB1 _ => true
  | .unwiredWB4 _ => true
  | .unwiredWB5 _ => true
  | .unwiredWB6 _ => true
  | .unwiredWB7 _ => true
  | .unwiredWW1 _ => true
  | .unwiredWW2 _ => true
  | .unwiredWW3 _ => true
  | .unwiredWW4 _ => true
  | .unwiredWW5 _ => true
  | .unwiredWW6 _ => true
  | .unwiredWW7 _ => true
  | .attnCmdreqAD => true
  | .attnEoiAD => true
  | .attnCmdreqD0 => true
  | .attnEoiD0 => true
  | .attnCmdreqD1 => true
  | .attnEoiD1 => true
  | .attnResetAD => true
  | .attnBaddev2 _ => true
  | .attnBaddev3 _ => true
  | .attnBaddev4 _ => true
  | .attnBaddev5 _ => true
  | .attnBaddev6 _ => true
  | .attnBadreqAD_0 => true
  | .attnBadreqAD_3 => true
  | .attnBadreqAD_5 => true
  | .attnBadreqAD_6 => true
  | .attnBadreqAD_7 => true
  | .attnBadreqAD_8 => true
  | .attnBadreqAD_9 => true
  | .attnBadreqAD_A => true
  | .attnBadreqAD_B => true
  | .attnBadreqAD_C => true
  | .attnBadreqAD_D => true
  | .attnBadreqAD_E => true
  | .attnBadreqAD_F => true
  | .attnBadreqD0_0 => true
  | .attnBadreqD0_3 => true
  | .attnBadreqD0_4 => true
  | .attnBadreqD0_5 => true
  | .attnBadreqD0_6 => true
  | .attnBadreqD0_7 => true
  | .attnBadreqD0_8 => true
  | .attnBadreqD0_9 => true
  | .attnBadreqD0_A => true
  | .attnBadreqD0_B => true
  | .attnBadreqD0_C => true
  | .attnBadreqD0_D => true
  | .attnBadreqD0_E => true
  | .attnBadreqD0_F => true
  | .attnBadreqD1_0 => true
  | .attnBadreqD1_3 => true
  | .attnBadreqD1_4 => true
  | .attnBadreqD1_5 => true
  | .attnBadreqD1_6 => true
  | .attnBadreqD1_7 => true
  | .attnBadreqD1_8 => true
  | .attnBadreqD1_9 => true
  | .attnBadreqD1_A => true
  | .attnBadreqD1_B => true
  | .attnBadreqD1_C => true
  | .attnBadreqD1_D => true
  | .attnBadreqD1_E => true
  | .attnBadreqD1_F => true
  | .read _ dev => namesTarget dev
  | .write _ dev => namesTarget dev
  | .readVerify _ dev => namesTarget dev
  | .writeVerify _ dev => namesTarget dev
  | .seek _ dev => namesTarget dev
  | .parkHeads _ dev => namesTarget dev
  | .getDeviceStatus _ dev => namesTarget dev
  | .getDeviceConfigAdapter _ => true
  | .getDeviceConfigDrive0 _ => true
  | .getDeviceConfigDrive1 _ => true
  | .getPositionInfo _ dev => namesTarget dev
  | .sectorBufferWrite _ dev => namesTarget dev
  | .sectorBufferRead _ dev => namesTarget dev
  | .diagnostic _ dev => namesTarget dev
  | .formatUnit _ dev => namesTarget dev
  | .formatPrepare _ dev => namesTarget dev
  | .unrecognized00 _ dev => namesTarget dev
  | .unrecognized07 _ dev => namesTarget dev
  | .unrecognized0B _ dev => namesTarget dev
  | .unrecognized0C _ dev => namesTarget dev
  | .unrecognized0D _ dev => namesTarget dev
  | .unrecognized0E _ dev => namesTarget dev
  | .unrecognized0F _ dev => namesTarget dev
  | .unrecognized13 _ dev => namesTarget dev
  | .unrecognized14 _ dev => namesTarget dev
  | .unrecognized15 _ dev => namesTarget dev
  | .unrecognized18 _ dev => namesTarget dev
  | .unrecognized19 _ dev => namesTarget dev
  | .unrecognized1A _ dev => namesTarget dev
  | .unrecognized1B _ dev => namesTarget dev
  | .unrecognized1C _ dev => namesTarget dev
  | .unrecognized1D _ dev => namesTarget dev
  | .unrecognized1E _ dev => namesTarget dev
  | .unrecognized1F _ dev => namesTarget dev
  | .cfgRead _ => true
  | .cfgWriteIgnored i _ => i.toNat < 2
  | .cfgWrite23 i _ => 2 ≤ i.toNat && i.toNat < 4
  | .cfgWrite47 i _ => 4 ≤ i.toNat
  | .cfgFeedback => true
  | .cfgReset => true

end Sys2Proof
end

