-- ==== Sys2Proof/Decode.lean ====
section
/-! DEFINITION. The decoder of the four formats of the opcode table (30_encoding.md), and the encoder. -/

namespace Sys2Proof

/-- What a step fetches: a port access (5-bit descriptor and the data a write moves, R117), an attention byte (R102), a
command word 0 (R107), or a configuration call (5-bit descriptor and the byte a write moves, R120). -/
inductive Code where
  | port (desc : BitVec 5) (data : Word)
  | attn (b : Byte)
  | cmd0 (w : Word)
  | cfgop (op : BitVec 5) (data : Byte)
deriving DecidableEq, Repr

/-- Why the decoder rejects a code. -/
inductive Reject where
  /-- A Get-Device-Config word whose device field is 2..6: no row, and R101 gives those values no target. -/
  | noTarget
  /-- A CFG_FEEDBACK or CFG_RESET descriptor with a non-zero index: R120 gives them index 0 only. -/
  | callTakesNoIndex
  /-- Raised for no value: the match over a bit vector ends with it. -/
  | noRow
deriving DecidableEq, Repr

/-- `ATTN[7:5]` (R102). -/
def attnDev (b : Byte) : BitVec 3 := b.extractLsb' 5 3

/-- `ATTN[3:0]` (R102). -/
def attnReq (b : Byte) : BitVec 4 := b.extractLsb' 0 4

/-- `CMD0[4:0]`, the command code (R107). -/
def cmd0Code (w : Word) : BitVec 5 := w.extractLsb' 0 5

/-- `CMD0[7:5]`, the target device (R107). -/
def cmd0Dev (w : Word) : BitVec 3 := w.extractLsb' 5 3

/-- `CMD0[14]`, the size flag (R107). -/
def cmd0Four (w : Word) : Bool := w.getLsbD 14

/-- `CFGOP[4:3]` (R120). -/
def cfgopCall (op : BitVec 5) : BitVec 2 := op.extractLsb' 3 2

/-- `CFGOP[2:0]` (R120). -/
def cfgopIndex (op : BitVec 5) : BitVec 3 := op.extractLsb' 0 3

/-- The low byte of a word: what a byte write moves. -/
def lowByte (w : Word) : Byte := w.extractLsb' 0 8

/-- The table's PORT rows (R117, R140, R143). -/
def decodePort (desc : BitVec 5) (data : Word) : Except Reject Instr :=
  match desc with
  | 0x08#5 => .ok .rdSir
  | 0x18#5 => .ok (.wrCir data)
  | 0x02#5 => .ok .rdStatus
  | 0x12#5 => .ok (.wrCtrl (lowByte data))
  | 0x03#5 => .ok .rdIsr
  | 0x13#5 => .ok (.wrAttn (lowByte data))
  | 0x00#5 => .ok .unwiredRB0
  | 0x01#5 => .ok .unwiredRB1
  | 0x04#5 => .ok .unwiredRB4
  | 0x05#5 => .ok .unwiredRB5
  | 0x06#5 => .ok .unwiredRB6
  | 0x07#5 => .ok .unwiredRB7
  | 0x09#5 => .ok .unwiredRW1
  | 0x0A#5 => .ok .unwiredRW2
  | 0x0B#5 => .ok .unwiredRW3
  | 0x0C#5 => .ok .unwiredRW4
  | 0x0D#5 => .ok .unwiredRW5
  | 0x0E#5 => .ok .unwiredRW6
  | 0x0F#5 => .ok .unwiredRW7
  | 0x10#5 => .ok (.unwiredWB0 (lowByte data))
  | 0x11#5 => .ok (.unwiredWB1 (lowByte data))
  | 0x14#5 => .ok (.unwiredWB4 (lowByte data))
  | 0x15#5 => .ok (.unwiredWB5 (lowByte data))
  | 0x16#5 => .ok (.unwiredWB6 (lowByte data))
  | 0x17#5 => .ok (.unwiredWB7 (lowByte data))
  | 0x19#5 => .ok (.unwiredWW1 data)
  | 0x1A#5 => .ok (.unwiredWW2 data)
  | 0x1B#5 => .ok (.unwiredWW3 data)
  | 0x1C#5 => .ok (.unwiredWW4 data)
  | 0x1D#5 => .ok (.unwiredWW5 data)
  | 0x1E#5 => .ok (.unwiredWW6 data)
  | 0x1F#5 => .ok (.unwiredWW7 data)
  | _ => .error .noRow

/-- The table's ATTN rows (R103, R166). -/
def decodeAttn (b : Byte) : Except Reject Instr :=
  match attnDev b with
  | 7#3 =>
    match attnReq b with
    | 0x1#4 => .ok .attnCmdreqAD
    | 0x2#4 => .ok .attnEoiAD
    | 0x4#4 => .ok .attnResetAD
    | 0x0#4 => .ok .attnBadreqAD_0
    | 0x3#4 => .ok .attnBadreqAD_3
    | 0x5#4 => .ok .attnBadreqAD_5
    | 0x6#4 => .ok .attnBadreqAD_6
    | 0x7#4 => .ok .attnBadreqAD_7
    | 0x8#4 => .ok .attnBadreqAD_8
    | 0x9#4 => .ok .attnBadreqAD_9
    | 0xA#4 => .ok .attnBadreqAD_A
    | 0xB#4 => .ok .attnBadreqAD_B
    | 0xC#4 => .ok .attnBadreqAD_C
    | 0xD#4 => .ok .attnBadreqAD_D
    | 0xE#4 => .ok .attnBadreqAD_E
    | 0xF#4 => .ok .attnBadreqAD_F
    | _ => .error .noRow
  | 0#3 =>
    match attnReq b with
    | 0x1#4 => .ok .attnCmdreqD0
    | 0x2#4 => .ok .attnEoiD0
    | 0x0#4 => .ok .attnBadreqD0_0
    | 0x3#4 => .ok .attnBadreqD0_3
    | 0x4#4 => .ok .attnBadreqD0_4
    | 0x5#4 => .ok .attnBadreqD0_5
    | 0x6#4 => .ok .attnBadreqD0_6
    | 0x7#4 => .ok .attnBadreqD0_7
    | 0x8#4 => .ok .attnBadreqD0_8
    | 0x9#4 => .ok .attnBadreqD0_9
    | 0xA#4 => .ok .attnBadreqD0_A
    | 0xB#4 => .ok .attnBadreqD0_B
    | 0xC#4 => .ok .attnBadreqD0_C
    | 0xD#4 => .ok .attnBadreqD0_D
    | 0xE#4 => .ok .attnBadreqD0_E
    | 0xF#4 => .ok .attnBadreqD0_F
    | _ => .error .noRow
  | 1#3 =>
    match attnReq b with
    | 0x1#4 => .ok .attnCmdreqD1
    | 0x2#4 => .ok .attnEoiD1
    | 0x0#4 => .ok .attnBadreqD1_0
    | 0x3#4 => .ok .attnBadreqD1_3
    | 0x4#4 => .ok .attnBadreqD1_4
    | 0x5#4 => .ok .attnBadreqD1_5
    | 0x6#4 => .ok .attnBadreqD1_6
    | 0x7#4 => .ok .attnBadreqD1_7
    | 0x8#4 => .ok .attnBadreqD1_8
    | 0x9#4 => .ok .attnBadreqD1_9
    | 0xA#4 => .ok .attnBadreqD1_A
    | 0xB#4 => .ok .attnBadreqD1_B
    | 0xC#4 => .ok .attnBadreqD1_C
    | 0xD#4 => .ok .attnBadreqD1_D
    | 0xE#4 => .ok .attnBadreqD1_E
    | 0xF#4 => .ok .attnBadreqD1_F
    | _ => .error .noRow
  | 2#3 => .ok (.attnBaddev2 (attnReq b))
  | 3#3 => .ok (.attnBaddev3 (attnReq b))
  | 4#3 => .ok (.attnBaddev4 (attnReq b))
  | 5#3 => .ok (.attnBaddev5 (attnReq b))
  | 6#3 => .ok (.attnBaddev6 (attnReq b))
  | _ => .error .noRow

/-- The table's CMD0 rows (R111, R112). -/
def decodeCmd0 (w : Word) : Except Reject Instr :=
  match cmd0Code w with
  | 0x00#5 => .ok (.unrecognized00 (cmd0Four w) (cmd0Dev w))
  | 0x01#5 => .ok (.read (cmd0Four w) (cmd0Dev w))
  | 0x02#5 => .ok (.write (cmd0Four w) (cmd0Dev w))
  | 0x03#5 => .ok (.readVerify (cmd0Four w) (cmd0Dev w))
  | 0x04#5 => .ok (.writeVerify (cmd0Four w) (cmd0Dev w))
  | 0x05#5 => .ok (.seek (cmd0Four w) (cmd0Dev w))
  | 0x06#5 => .ok (.parkHeads (cmd0Four w) (cmd0Dev w))
  | 0x07#5 => .ok (.unrecognized07 (cmd0Four w) (cmd0Dev w))
  | 0x08#5 => .ok (.getDeviceStatus (cmd0Four w) (cmd0Dev w))
  | 0x09#5 =>
    match cmd0Dev w with
    | 7#3 => .ok (.getDeviceConfigAdapter (cmd0Four w))
    | 0#3 => .ok (.getDeviceConfigDrive0 (cmd0Four w))
    | 1#3 => .ok (.getDeviceConfigDrive1 (cmd0Four w))
    | _ => .error .noTarget
  | 0x0A#5 => .ok (.getPositionInfo (cmd0Four w) (cmd0Dev w))
  | 0x0B#5 => .ok (.unrecognized0B (cmd0Four w) (cmd0Dev w))
  | 0x0C#5 => .ok (.unrecognized0C (cmd0Four w) (cmd0Dev w))
  | 0x0D#5 => .ok (.unrecognized0D (cmd0Four w) (cmd0Dev w))
  | 0x0E#5 => .ok (.unrecognized0E (cmd0Four w) (cmd0Dev w))
  | 0x0F#5 => .ok (.unrecognized0F (cmd0Four w) (cmd0Dev w))
  | 0x10#5 => .ok (.sectorBufferWrite (cmd0Four w) (cmd0Dev w))
  | 0x11#5 => .ok (.sectorBufferRead (cmd0Four w) (cmd0Dev w))
  | 0x12#5 => .ok (.diagnostic (cmd0Four w) (cmd0Dev w))
  | 0x13#5 => .ok (.unrecognized13 (cmd0Four w) (cmd0Dev w))
  | 0x14#5 => .ok (.unrecognized14 (cmd0Four w) (cmd0Dev w))
  | 0x15#5 => .ok (.unrecognized15 (cmd0Four w) (cmd0Dev w))
  | 0x16#5 => .ok (.formatUnit (cmd0Four w) (cmd0Dev w))
  | 0x17#5 => .ok (.formatPrepare (cmd0Four w) (cmd0Dev w))
  | 0x18#5 => .ok (.unrecognized18 (cmd0Four w) (cmd0Dev w))
  | 0x19#5 => .ok (.unrecognized19 (cmd0Four w) (cmd0Dev w))
  | 0x1A#5 => .ok (.unrecognized1A (cmd0Four w) (cmd0Dev w))
  | 0x1B#5 => .ok (.unrecognized1B (cmd0Four w) (cmd0Dev w))
  | 0x1C#5 => .ok (.unrecognized1C (cmd0Four w) (cmd0Dev w))
  | 0x1D#5 => .ok (.unrecognized1D (cmd0Four w) (cmd0Dev w))
  | 0x1E#5 => .ok (.unrecognized1E (cmd0Four w) (cmd0Dev w))
  | 0x1F#5 => .ok (.unrecognized1F (cmd0Four w) (cmd0Dev w))
  | _ => .error .noRow

/-- The table's CFGOP rows (R120). -/
def decodeCfgop (op : BitVec 5) (data : Byte) : Except Reject Instr :=
  match cfgopCall op with
  | 0#2 => .ok (.cfgRead (cfgopIndex op))
  | 1#2 =>
    if (cfgopIndex op).toNat < 2 then .ok (.cfgWriteIgnored (cfgopIndex op) data)
    else if (cfgopIndex op).toNat < 4 then .ok (.cfgWrite23 (cfgopIndex op) data)
    else .ok (.cfgWrite47 (cfgopIndex op) data)
  | 2#2 => if cfgopIndex op = 0 then .ok .cfgFeedback else .error .callTakesNoIndex
  | 3#2 => if cfgopIndex op = 0 then .ok .cfgReset else .error .callTakesNoIndex
  | _ => .error .noRow

/-- The decoder: total on every code of every format (R119). -/
def decode : Code → Except Reject Instr
  | .port desc data => decodePort desc data
  | .attn b => decodeAttn b
  | .cmd0 w => decodeCmd0 w
  | .cfgop op data => decodeCfgop op data

/-- The code a number of the opcode table stands for. The table numbers its four formats alike (a PORT 0x02, an ATTN 0x02
and a CFGOP 0x02 are the same number), so the format cannot be read from the number alone: more than 8 bits is a CMD0 word;
8 bits or fewer is a PORT descriptor below 0x20 and an attention byte from 0x20 on. DESIGN CHOICE, log entry 3. -/
def tableCode (nbits w : Nat) : Code :=
  if 8 < nbits then .cmd0 (BitVec.ofNat 16 w)
  else if w < 0x20 then .port (BitVec.ofNat 5 w) 0
  else .attn (BitVec.ofNat 8 w)

/-- The instruction the decoder reads from a number of the opcode table. -/
def decodeTableWord (nbits w : Nat) : Option Instr :=
  match decode (tableCode nbits w) with
  | .ok i => some i
  | .error _ => none

/-! The encoder. -/

/-- An attention byte from its fields, bit 4 zero (R102). -/
def attnByte (dev : BitVec 3) (req : BitVec 4) : Byte := dev ++ 0#1 ++ req

/-- A command word 0 from its fields, ignored bits zero (R107). -/
def cmd0Word (four : Bool) (dev : BitVec 3) (code : BitVec 5) : Word :=
  0#1 ++ BitVec.ofBool four ++ 0#6 ++ dev ++ code

/-- A configuration-call descriptor from its fields (R120). -/
def cfgopDesc (call : BitVec 2) (index : BitVec 3) : BitVec 5 := call ++ index

/-- A byte on the 16-bit data lines. -/
def byteData (v : Byte) : Word := v.setWidth 16

/-- The code of an instruction, ignored bits zero. -/
def encode : Instr → Code
  | .rdSir => .port 0x08 0
  | .wrCir v => .port 0x18 v
  | .rdStatus => .port 0x02 0
  | .wrCtrl v => .port 0x12 (byteData v)
  | .rdIsr => .port 0x03 0
  | .wrAttn v => .port 0x13 (byteData v)
  | .unwiredRB0 => .port 0x00 0
  | .unwiredRB1 => .port 0x01 0
  | .unwiredRB4 => .port 0x04 0
  | .unwiredRB5 => .port 0x05 0
  | .unwiredRB6 => .port 0x06 0
  | .unwiredRB7 => .port 0x07 0
  | .unwiredRW1 => .port 0x09 0
  | .unwiredRW2 => .port 0x0A 0
  | .unwiredRW3 => .port 0x0B 0
  | .unwiredRW4 => .port 0x0C 0
  | .unwiredRW5 => .port 0x0D 0
  | .unwiredRW6 => .port 0x0E 0
  | .unwiredRW7 => .port 0x0F 0
  | .unwiredWB0 v => .port 0x10 (byteData v)
  | .unwiredWB1 v => .port 0x11 (byteData v)
  | .unwiredWB4 v => .port 0x14 (byteData v)
  | .unwiredWB5 v => .port 0x15 (byteData v)
  | .unwiredWB6 v => .port 0x16 (byteData v)
  | .unwiredWB7 v => .port 0x17 (byteData v)
  | .unwiredWW1 v => .port 0x19 v
  | .unwiredWW2 v => .port 0x1A v
  | .unwiredWW3 v => .port 0x1B v
  | .unwiredWW4 v => .port 0x1C v
  | .unwiredWW5 v => .port 0x1D v
  | .unwiredWW6 v => .port 0x1E v
  | .unwiredWW7 v => .port 0x1F v
  | .attnCmdreqAD => .attn (attnByte 7 0x1)
  | .attnEoiAD => .attn (attnByte 7 0x2)
  | .attnCmdreqD0 => .attn (attnByte 0 0x1)
  | .attnEoiD0 => .attn (attnByte 0 0x2)
  | .attnCmdreqD1 => .attn (attnByte 1 0x1)
  | .attnEoiD1 => .attn (attnByte 1 0x2)
  | .attnResetAD => .attn (attnByte 7 0x4)
  | .attnBaddev2 req => .attn (attnByte 2 req)
  | .attnBaddev3 req => .attn (attnByte 3 req)
  | .attnBaddev4 req => .attn (attnByte 4 req)
  | .attnBaddev5 req => .attn (attnByte 5 req)
  | .attnBaddev6 req => .attn (attnByte 6 req)
  | .attnBadreqAD_0 => .attn (attnByte 7 0x0)
  | .attnBadreqAD_3 => .attn (attnByte 7 0x3)
  | .attnBadreqAD_5 => .attn (attnByte 7 0x5)
  | .attnBadreqAD_6 => .attn (attnByte 7 0x6)
  | .attnBadreqAD_7 => .attn (attnByte 7 0x7)
  | .attnBadreqAD_8 => .attn (attnByte 7 0x8)
  | .attnBadreqAD_9 => .attn (attnByte 7 0x9)
  | .attnBadreqAD_A => .attn (attnByte 7 0xA)
  | .attnBadreqAD_B => .attn (attnByte 7 0xB)
  | .attnBadreqAD_C => .attn (attnByte 7 0xC)
  | .attnBadreqAD_D => .attn (attnByte 7 0xD)
  | .attnBadreqAD_E => .attn (attnByte 7 0xE)
  | .attnBadreqAD_F => .attn (attnByte 7 0xF)
  | .attnBadreqD0_0 => .attn (attnByte 0 0x0)
  | .attnBadreqD0_3 => .attn (attnByte 0 0x3)
  | .attnBadreqD0_4 => .attn (attnByte 0 0x4)
  | .attnBadreqD0_5 => .attn (attnByte 0 0x5)
  | .attnBadreqD0_6 => .attn (attnByte 0 0x6)
  | .attnBadreqD0_7 => .attn (attnByte 0 0x7)
  | .attnBadreqD0_8 => .attn (attnByte 0 0x8)
  | .attnBadreqD0_9 => .attn (attnByte 0 0x9)
  | .attnBadreqD0_A => .attn (attnByte 0 0xA)
  | .attnBadreqD0_B => .attn (attnByte 0 0xB)
  | .attnBadreqD0_C => .attn (attnByte 0 0xC)
  | .attnBadreqD0_D => .attn (attnByte 0 0xD)
  | .attnBadreqD0_E => .attn (attnByte 0 0xE)
  | .attnBadreqD0_F => .attn (attnByte 0 0xF)
  | .attnBadreqD1_0 => .attn (attnByte 1 0x0)
  | .attnBadreqD1_3 => .attn (attnByte 1 0x3)
  | .attnBadreqD1_4 => .attn (attnByte 1 0x4)
  | .attnBadreqD1_5 => .attn (attnByte 1 0x5)
  | .attnBadreqD1_6 => .attn (attnByte 1 0x6)
  | .attnBadreqD1_7 => .attn (attnByte 1 0x7)
  | .attnBadreqD1_8 => .attn (attnByte 1 0x8)
  | .attnBadreqD1_9 => .attn (attnByte 1 0x9)
  | .attnBadreqD1_A => .attn (attnByte 1 0xA)
  | .attnBadreqD1_B => .attn (attnByte 1 0xB)
  | .attnBadreqD1_C => .attn (attnByte 1 0xC)
  | .attnBadreqD1_D => .attn (attnByte 1 0xD)
  | .attnBadreqD1_E => .attn (attnByte 1 0xE)
  | .attnBadreqD1_F => .attn (attnByte 1 0xF)
  | .read four dev => .cmd0 (cmd0Word four dev 0x01)
  | .write four dev => .cmd0 (cmd0Word four dev 0x02)
  | .readVerify four dev => .cmd0 (cmd0Word four dev 0x03)
  | .writeVerify four dev => .cmd0 (cmd0Word four dev 0x04)
  | .seek four dev => .cmd0 (cmd0Word four dev 0x05)
  | .parkHeads four dev => .cmd0 (cmd0Word four dev 0x06)
  | .getDeviceStatus four dev => .cmd0 (cmd0Word four dev 0x08)
  | .getDeviceConfigAdapter four => .cmd0 (cmd0Word four 7 0x09)
  | .getDeviceConfigDrive0 four => .cmd0 (cmd0Word four 0 0x09)
  | .getDeviceConfigDrive1 four => .cmd0 (cmd0Word four 1 0x09)
  | .getPositionInfo four dev => .cmd0 (cmd0Word four dev 0x0A)
  | .sectorBufferWrite four dev => .cmd0 (cmd0Word four dev 0x10)
  | .sectorBufferRead four dev => .cmd0 (cmd0Word four dev 0x11)
  | .diagnostic four dev => .cmd0 (cmd0Word four dev 0x12)
  | .formatUnit four dev => .cmd0 (cmd0Word four dev 0x16)
  | .formatPrepare four dev => .cmd0 (cmd0Word four dev 0x17)
  | .unrecognized00 four dev => .cmd0 (cmd0Word four dev 0x00)
  | .unrecognized07 four dev => .cmd0 (cmd0Word four dev 0x07)
  | .unrecognized0B four dev => .cmd0 (cmd0Word four dev 0x0B)
  | .unrecognized0C four dev => .cmd0 (cmd0Word four dev 0x0C)
  | .unrecognized0D four dev => .cmd0 (cmd0Word four dev 0x0D)
  | .unrecognized0E four dev => .cmd0 (cmd0Word four dev 0x0E)
  | .unrecognized0F four dev => .cmd0 (cmd0Word four dev 0x0F)
  | .unrecognized13 four dev => .cmd0 (cmd0Word four dev 0x13)
  | .unrecognized14 four dev => .cmd0 (cmd0Word four dev 0x14)
  | .unrecognized15 four dev => .cmd0 (cmd0Word four dev 0x15)
  | .unrecognized18 four dev => .cmd0 (cmd0Word four dev 0x18)
  | .unrecognized19 four dev => .cmd0 (cmd0Word four dev 0x19)
  | .unrecognized1A four dev => .cmd0 (cmd0Word four dev 0x1A)
  | .unrecognized1B four dev => .cmd0 (cmd0Word four dev 0x1B)
  | .unrecognized1C four dev => .cmd0 (cmd0Word four dev 0x1C)
  | .unrecognized1D four dev => .cmd0 (cmd0Word four dev 0x1D)
  | .unrecognized1E four dev => .cmd0 (cmd0Word four dev 0x1E)
  | .unrecognized1F four dev => .cmd0 (cmd0Word four dev 0x1F)
  | .cfgRead i => .cfgop (cfgopDesc 0 i) 0
  | .cfgWriteIgnored i v => .cfgop (cfgopDesc 1 i) v
  | .cfgWrite23 i v => .cfgop (cfgopDesc 1 i) v
  | .cfgWrite47 i v => .cfgop (cfgopDesc 1 i) v
  | .cfgFeedback => .cfgop (cfgopDesc 2 0) 0
  | .cfgReset => .cfgop (cfgopDesc 3 0) 0

end Sys2Proof
end

