-- ==== Sys2Proof/Machine/State.lean ====
section
/-! DEFINITION. The state of one instance (10_state.md) as plain data, the reasons a step stops, and power-on. -/

namespace Sys2Proof.Machine

/-- A command target (R101): the adapter or a drive. Device codes 2..6 name no target and no value here
(R26, R212; log entry 13). -/
inductive Target where
  | adapter
  | drive (d : DriveNo)
deriving DecidableEq, Repr

/-- The sequencer position (R27). -/
inductive Phase where
  | idle
  | p0
  | p1
  | p2
deriving DecidableEq, Repr

/-- The Timing Clock (R38); time is a natural number of units (R421, log entry 10). -/
inductive Clock where
  | disarmed
  | armed (t : Nat)
deriving DecidableEq, Repr

/-- The reasons of a fatal fault (R403). -/
inductive FatalReason where
  /-- A command request while the guard is set, the engine is not Idle or a reset is pending (R161, R162). -/
  | commandWhileBusy
  /-- The target field of word 0 differs from the requested target at block completion (R176). -/
  | targetMismatch
  /-- A fifth command word without completion (R175, R177). -/
  | commandQueueOverflow
  /-- A Command-Interface write with the guard clear (R175, R178). -/
  | commandWordWithoutRequest
  /-- An attention byte whose device code is 2..6 (R160, R166). -/
  | badAttentionDevice
  /-- An attention byte with no request of the table, or a reset to a drive (R160, R166). -/
  | badAttentionRequest
  /-- A sector-buffer count above 256 (R325, R329). -/
  | sectorBufferCount
  /-- An RBA at or past the drive's total sectors at a storage transfer (R217). -/
  | pastEndOfDrive
  /-- A query or diagnostic while an interrupt is pending (R404). -/
  | irqAlreadyPending
  /-- An access to an unwired descriptor (R143). -/
  | unwiredPort
deriving DecidableEq, Repr

/-- The interrupt reason codes (R106). -/
inductive Reason where
  | success
  | resetComplete
  | xferReady
  | failure
deriving DecidableEq, Repr

/-- Byte cells: addresses strictly rising, no cell equal to what an unlisted address reads as, which is 0
(`Memory.wf`; log entry 18). -/
abbrev Memory := List Host.Cell

/-- The block's own state: the record S of R20 to R43. `irqLine` (R43) is computed, `Block.irqLine`. -/
structure Block where
  /-- Basic Status (R21). -/
  status : Byte
  /-- Basic Control (R24). -/
  ctrl : Byte
  /-- Interrupt Status (R25). -/
  irqStatus : Byte
  /-- The guard: a command request awaits its block (R26). -/
  cmdReqInProgress : Bool
  /-- The target of the last command request (R26). -/
  cmdDev : Target
  /-- The sequencer position (R27). -/
  phase : Phase
  /-- The command code in execution (R28). -/
  command : BitVec 5
  /-- The command input queue (R29). -/
  cmdQueue : Vector Word 4
  /-- Its write cursor, 0..4 (R29). -/
  cmdPos : Nat
  /-- The status output queue (R30). -/
  statusQueue : Vector Word 256
  /-- Its length, 0..256 (R30). -/
  statusLen : Nat
  /-- Its read cursor, 0..256 (R30). -/
  statusPos : Nat
  /-- The data transfer buffer (R31). -/
  dataBuf : Sector
  /-- Its word cursor, 0..256 (R31). -/
  dataPos : Nat
  /-- The sector buffer (R32): sector k at bytes 512 k to 512 k + 511, k in 0..255. -/
  sectorBuf : Memory
  /-- The logical block address cursor (R33). -/
  rba : BitVec 32
  /-- Completed sectors of the transfer (R34). -/
  sectorPos : BitVec 16
  /-- Sectors of the transfer (R34). -/
  sectorCount : BitVec 16
  /-- The interrupt-in-progress guard (R35). -/
  irqInProgress : Bool
  /-- The interrupt latch (R36). -/
  irqLatch : Bool
  /-- A reset sequence awaits its firing (R37). -/
  resetPending : Bool
  /-- The Timing Clock (R38). -/
  clock : Clock
  /-- The timing accumulator (R39). -/
  acc : Nat
  /-- The DMA channel (R40). -/
  dmaChannel : BitVec 3
  /-- The configuration bytes (R41). -/
  cfg : Vector Byte 8
  /-- Whether the register interface is bound (R41). -/
  ioEnabled : Bool
  /-- The fatal fault, if one was raised (R42). -/
  fault : Option FatalReason
deriving DecidableEq, Repr

/-- A drive: its descriptor (R48), the answer of its storage to `LastSector` (R215) and the storage behind it
(R71, R73): sector k at bytes 512 k to 512 k + 511. -/
structure Drive where
  present : Bool
  spt : Byte
  heads : Byte
  tracks : BitVec 16
  totalSectors : BitVec 32
  lastSector : BitVec 32
  backing : Memory
deriving DecidableEq, Repr

/-- The DMA engine's answer to `DmaPush` (R230). -/
inductive PushAnswer where
  | ok
  | noData
deriving DecidableEq, Repr

/-- The DMA engine's answer to `DmaPull` (R230). -/
inductive PullAnswer where
  | word (v : Word)
  | noData
deriving DecidableEq, Repr

/-- The storage's answer to a transfer (R216). A failed write or zero leaves, from the first byte of its range on,
the bytes `found`, and the rest of the range as it was (log entry 7); a failed read changes nothing. -/
inductive StorageAnswer where
  | ok
  | fail (found : List Byte)
deriving DecidableEq, Repr

/-- A call to an external agent (R11, R353). -/
inductive Call where
  | dmaPush (channel : BitVec 3) (w : Word) (answer : PushAnswer)
  | dmaPull (channel : BitVec 3) (answer : PullAnswer)
  | storageRead (d : DriveNo) (lba : BitVec 32) (answer : StorageAnswer)
  | storageWrite (d : DriveNo) (lba : BitVec 32) (answer : StorageAnswer)
  | storageZero (d : DriveNo) (first count : Nat) (answer : StorageAnswer)
  | irqRaise (line : Nat)
  | irqLower (line : Nat)
  | romDisable
  | romPlace (b : Byte)
  | romEnable
deriving DecidableEq, Repr

/-- What the last read returned to its agent. -/
inductive ReadValue where
  | none
  | byte (v : Byte)
  | word (v : Word)
  | bit (v : Bool)
deriving DecidableEq, Repr

/-- The coming step of an agent (R15, R82). `io` is a bus cycle at an absolute port address
(of 16 bits: log entry 21); `attention` is the byte
write at offset 3 named by its ATTN format (log entry 4); `config` is a call of the configuration mechanism by its
CFGOP descriptor; `fire` is a firing of the Timing Clock. -/
inductive Event where
  | io (write word : Bool) (addr : BitVec 16) (data : Word)
  | attention (b : Byte)
  | config (op : BitVec 5) (data : Byte)
  | fire
deriving DecidableEq, Repr

/-- What the outside supplies and receives: the model's own fields (log entries 2, 5, 12). -/
structure External where
  schedule : List Event
  pushAnswers : List PushAnswer
  pullAnswers : List PullAnswer
  storageAnswers : List StorageAnswer
  /-- The calls made, newest first. -/
  calls : List Call
  result : ReadValue
  busDraws : Nat
deriving DecidableEq, Repr

/-- The machine: the block, its drives, its creation arguments (R8) and the outside. -/
structure State where
  params : Params
  blk : Block
  drive0 : Drive
  drive1 : Drive
  ext : External
deriving DecidableEq, Repr

/-- Why a step stops. -/
inductive Fault where
  /-- Raised by `step` on an instance whose `fault` is set: "From then on the instance takes no step" (R402, R42). Safe:
  the hardware's model aborts here too. -/
  | halted (r : FatalReason)
  /-- Raised by a data-movement phase that would touch a sector of the sector buffer above 255, which does not exist
  (R32, R71). Safe: no reachable state raises it, since the count is checked first (R325; log entry 16). -/
  | noSuchSector
  /-- Raised by a firing in a phase that the command in execution does not have (R111; log entry 15). Safe: no
  reachable state raises it. -/
  | noSuchPhase
deriving DecidableEq, Repr

/-- Why an instruction is refused. -/
inductive Refusal where
  /-- Raised by `exec` for an instruction without a meaning; no arm raises it. Safe. -/
  | notModelled (mnemonic : String)
  /-- Raised by `step` for a code that is no row of the opcode table (`Reject`). Safe. -/
  | undecoded (r : Reject)
deriving DecidableEq, Repr

/-- The outcome of a step or of an instruction. -/
abbrev StepResult := Host.Outcome State Fault Refusal

/-- The block at power-on (R50), its identification bytes given. -/
def Block.powerOn (id : Byte × Byte) : Block where
  status := 0x00
  ctrl := 0x00
  irqStatus := 0x00
  cmdReqInProgress := false
  cmdDev := .drive .drive0
  phase := .idle
  command := 0
  cmdQueue := Vector.replicate 4 0x0000
  cmdPos := 0
  statusQueue := Vector.replicate 256 0x0000
  statusLen := 0
  statusPos := 0
  dataBuf := Vector.replicate 256 0x0000
  dataPos := 0
  sectorBuf := []
  rba := 0
  sectorPos := 0
  sectorCount := 0
  irqInProgress := false
  irqLatch := false
  resetPending := false
  clock := .disarmed
  acc := 0
  dmaChannel := 0
  cfg := #v[id.1, id.2, 0x00, 0x00, 0x00, 0x00, 0x00, 0x00]
  ioEnabled := false
  fault := none

/-- Drive 0 of the standard start state Z of 95_test_vectors.md, its storage all zero: DESIGN CHOICE, log entry 6. -/
def Drive.created0 : Drive where
  present := true
  spt := 7
  heads := 11
  tracks := 13
  totalSectors := 1001
  lastSector := 1000
  backing := []

/-- The absent drive 1 of the standard start state Z: DESIGN CHOICE, log entry 6. -/
def Drive.created1 : Drive where
  present := false
  spt := 0
  heads := 0
  tracks := 0
  totalSectors := 0
  lastSector := 0
  backing := []

/-- Power-on, that is instance creation (R450, R50), with the default creation arguments (log entries 6, 8) and nothing
scheduled (log entry 2). -/
def State.reset : State where
  params := Config.defaults
  blk := Block.powerOn Config.defaults.adapterId
  drive0 := Drive.created0
  drive1 := Drive.created1
  ext :=
    { schedule := [], pushAnswers := [], pullAnswers := [], storageAnswers := [], calls := [], result := .none,
      busDraws := 0 }

end Sys2Proof.Machine
end

