-- ==== Sys2Proof/Machine/Flags.lean ====
section
/-! DEFINITION. The bits of Basic Status (10_state.md R21) and Basic Control (R24), and the interrupt line (R43). -/

namespace Sys2Proof.Machine

/-- `IRQ`, the device-level interrupt flag, bit 0 (R21, R22). -/
def statusIrq : Byte := 0x01
/-- `TREQ`, transfer request, bit 1 (R21). -/
def statusTreq : Byte := 0x02
/-- `CIRF`, bit 2: never set (R21, R23). -/
def statusCirf : Byte := 0x04
/-- `SOF`, status-out-full, bit 3 (R21). -/
def statusSof : Byte := 0x08
/-- `BUSY`, bit 4 (R21). -/
def statusBusy : Byte := 0x10
/-- `CIP`, command in progress, bit 5 (R21). -/
def statusCip : Byte := 0x20
/-- `IRQPEND`, bit 6: never set (R21, R23). -/
def statusIrqpend : Byte := 0x40
/-- `DMAEN`, bit 7: never set (R21, R23). -/
def statusDmaen : Byte := 0x80

/-- Set the bits of a mask. -/
def setBits (mask v : Byte) : Byte := v ||| mask

/-- Clear the bits of a mask. -/
def clearBits (mask v : Byte) : Byte := v &&& ~~~mask

/-- Whether a bit of a mask is set. -/
def hasBit (mask v : Byte) : Bool := v &&& mask != 0

/-- The status value at the end of P0 of a DMA command: CIP, TREQ, IRQ (R224). -/
def statusTransferReady : Byte := 0x23
/-- The status value at the end of P0 of the other multi-phase commands and at the end of P1: CIP (R224). -/
def statusInProgress : Byte := 0x20
/-- The status value of a resolution with a report and of reset completion: SOF, IRQ (R224). -/
def statusReport : Byte := 0x09
/-- The status value of a resolution without a report: IRQ (R224). -/
def statusNoReport : Byte := 0x01

/-- `CTRL.RESET`, bit 7 (R24). -/
def ctrlReset (v : Byte) : Bool := v.getLsbD 7
/-- `CTRL.DMA_ENA`, bit 1 (R24). -/
def ctrlDmaEna (v : Byte) : Bool := v.getLsbD 1
/-- `CTRL.IRQ_ENA`, bit 0 (R24). -/
def ctrlIrqEna (v : Byte) : Bool := v.getLsbD 0

/-- The interrupt line is a function of state (R43). -/
def Block.irqLine (b : Block) : Bool := b.irqLatch && ctrlIrqEna b.ctrl

end Sys2Proof.Machine
end

