-- ==== Sys2Proof/Machine/Memory.lean ====
section
/-! DEFINITION. Byte-cell memory in one canonical form, and sectors of words in it (20_memory.md R71, R73). -/

namespace Sys2Proof.Machine

/-- What an address that is not listed reads as: 0, the power-on content of the sector buffer (R32, R50); for a
drive's storage a DESIGN CHOICE (log entry 6). -/
def Memory.absent : Byte := 0

/-- Every listed address is at least `lo`, addresses rise strictly, and no cell holds the absent value. -/
def Memory.wfFrom : Nat → Memory → Bool
  | _, [] => true
  | lo, (a, b) :: m => lo ≤ a && b != Memory.absent && Memory.wfFrom (a + 1) m

/-- The canonical form. -/
def Memory.wf (m : Memory) : Bool := Memory.wfFrom 0 m

/-- The byte at an address. -/
def Memory.read : Memory → Nat → Byte
  | [], _ => Memory.absent
  | (k, b) :: m, a => if k = a then b else Memory.read m a

/-- The cells below an address. -/
def Memory.below (m : Memory) (a : Nat) : Memory := m.filter fun c => c.1 < a

/-- The cells from an address on. -/
def Memory.above (m : Memory) (a : Nat) : Memory := m.filter fun c => a ≤ c.1

/-- The cells of consecutive bytes, the absent value left out. -/
def Memory.cells : Nat → List Byte → Memory
  | _, [] => []
  | a, b :: bs => if b = Memory.absent then Memory.cells (a + 1) bs else (a, b) :: Memory.cells (a + 1) bs

/-- Store consecutive bytes from address `a` on. -/
def Memory.store (m : Memory) (a : Nat) (bs : List Byte) : Memory :=
  Memory.below m a ++ Memory.cells a bs ++ Memory.above m (a + bs.length)

/-- Set the `n` bytes from address `a` on to zero. -/
def Memory.zero (m : Memory) (a n : Nat) : Memory := Memory.below m a ++ Memory.above m (a + n)

/-- The bytes of a sector (512). -/
def sectorBytes : Nat := 512

/-- The bytes of words, the low byte of each first (R73). -/
def wordBytes (ws : List Word) : List Byte := ws.flatMap fun w => [w.extractLsb' 0 8, w.extractLsb' 8 8]

/-- The word at a byte address: byte 2i of a sector holds bits 7:0 of word i, byte 2i+1 bits 15:8 (R73). -/
def Memory.readWord (m : Memory) (a : Nat) : Word := Memory.read m (a + 1) ++ Memory.read m a

/-- Sector `k` (R71, R73). -/
def Memory.readSector (m : Memory) (k : Nat) : Sector :=
  Vector.ofFn fun i => Memory.readWord m (sectorBytes * k + 2 * i.val)

/-- Store a sector at sector `k` (R71, R73). -/
def Memory.writeSector (m : Memory) (k : Nat) (w : Sector) : Memory :=
  Memory.store m (sectorBytes * k) (wordBytes w.toList)

end Sys2Proof.Machine
end

