-- ==== Sys2Proof/Machine/Operands.lean ====
section
/-! DEFINITION. The fields and formats of 30_encoding.md: devices, command words, report words, configuration bytes,
and the port descriptor of a bus cycle. -/

namespace Sys2Proof.Machine

/-- The device code of a drive (R48, R101). -/
def driveCode : DriveNo → BitVec 3
  | .drive0 => 0
  | .drive1 => 1

/-- The device code of a target (R101). -/
def Target.code : Target → BitVec 3
  | .adapter => 7
  | .drive d => driveCode d

/-- The target a device code names; 2..6 name none (R101). -/
def targetOf (dev : BitVec 3) : Option Target :=
  if dev = 7 then some .adapter
  else if dev = 0 then some (.drive .drive0)
  else if dev = 1 then some (.drive .drive1)
  else none

/-- The interrupt reason codes (R106). -/
def Reason.code : Reason → BitVec 4
  | .success => 0x1
  | .resetComplete => 0xA
  | .xferReady => 0xB
  | .failure => 0xC

/-- The Interrupt-Status byte: device 7:5, bit 4 zero, reason 3:0 (R105). -/
def isrByte (dev : BitVec 3) (reason : BitVec 4) : Byte := dev ++ 0#1 ++ reason

/-- `Hdr(code, dev, len)`, word 0 of a report: length 15:8, device 7:5, code 4:0 (R113). -/
def hdr (code : BitVec 5) (dev : BitVec 3) (len : BitVec 8) : Word := len ++ dev ++ code

/-- How many words a command block has, from its word 0 (R108). -/
def blockLength (word0 : Word) : Nat := if cmd0Four word0 then 4 else 2

/-- A command word of the queue (R29). -/
def Block.cmdWord (b : Block) (i : Nat) : Word := b.cmdQueue.getD i 0

/-- The RBA operand: words 2 (low) and 3 (high), 28 bits kept (R110). -/
def Block.rbaOperand (b : Block) : BitVec 32 := (b.cmdWord 3 ++ b.cmdWord 2) &&& 0x0FFFFFFF#32

/-- The sector count operand: word 1 (R109). -/
def Block.countOperand (b : Block) : BitVec 16 := b.cmdWord 1

/-- The low word of a 32-bit value. -/
def lowWord (v : BitVec 32) : Word := v.extractLsb' 0 16

/-- The high word of a 32-bit value. -/
def highWord (v : BitVec 32) : Word := v.extractLsb' 16 16

/-- Byte i of the configuration block (R41). -/
def Block.cfgByte (b : Block) (i : Nat) : Byte := b.cfg.getD i 0

/-- Two configuration bytes in one report word, the lower-numbered byte in bits 7:0 (R320). -/
def Block.cfgPair (b : Block) (i : Nat) : Word := b.cfgByte (i + 1) ++ b.cfgByte i

/-- The DMA-channel field of configuration byte 2 (R352). -/
def dmaField (b : Byte) : BitVec 4 := b.extractLsb' 2 4

/-- The enable bit of configuration byte 2 (R354). -/
def cfgEnable (b : Byte) : Bool := b.getLsbD 0

/-- The DMA-channel decode: seven values select a channel, the other nine leave it (R352). -/
def decodeDma (b : Byte) (channel : BitVec 3) : BitVec 3 :=
  if dmaField b = 2 ∨ 8 ≤ (dmaField b).toNat then channel else (dmaField b).setWidth 3

/-- The descriptor of a bus cycle, if its address lies in the window of 8 ports (R70, R79, R117). The spec gives no width of a
port address and is silent on a window that passes the top of the port space: 16 bits, and an offset modulo 2^16, so that the
window of an `IO_BASE` above 0xFFF8 wraps to port 0, are a DESIGN CHOICE, log entry 21. -/
def portDescriptor (ioBase : BitVec 16) (write word : Bool) (addr : BitVec 16) : Option (BitVec 5) :=
  if (addr - ioBase).toNat < 8 then
    some (BitVec.ofBool write ++ BitVec.ofBool word ++ (addr - ioBase).setWidth 3)
  else none

end Sys2Proof.Machine
end

