-- ==== Sys2Proof/Machine/Ops.lean ====
section
/-! DEFINITION. The named operations on the state: drives, calls to external agents, the clock, posts, reports,
resolutions, the reset sequence, and the fatal fault. -/

namespace Sys2Proof.Machine

/-! Drives and calls. -/

/-- The drive `d` (R48). -/
def State.drive (s : State) : DriveNo → Drive
  | .drive0 => s.drive0
  | .drive1 => s.drive1

/-- Replace what is stored behind drive `d`; the descriptor stays (R48, R83). -/
def State.setBacking (s : State) (d : DriveNo) (m : Memory) : State :=
  match d with
  | .drive0 => { s with drive0 := { s.drive0 with backing := m } }
  | .drive1 => { s with drive1 := { s.drive1 with backing := m } }

/-- Record a call to an external agent (R11). -/
def State.call (s : State) (c : Call) : State := { s with ext := { s.ext with calls := c :: s.ext.calls } }

/-- `IrqRaise(IRQ_LINE)` (R11, R422). -/
def State.irqRaise (s : State) : State := s.call (.irqRaise s.params.irqLineNo)

/-- `IrqLower(IRQ_LINE)` (R11, R422). -/
def State.irqLower (s : State) : State := s.call (.irqLower s.params.irqLineNo)

/-- The value a read returns to its agent. -/
def State.answer (s : State) (v : ReadValue) : State := { s with ext := { s.ext with result := v } }

/-! The clock (R203, R204). -/

/-- What arming with delay `t` leaves the clock at: a zero delay follows the policy (R203, R204). -/
def armedClock (p : Params) (t : Nat) : Clock :=
  if t = 0 then
    match p.zeroDelay with
    | .disarm => .disarmed
    | .fireNext => .armed 0
  else .armed t

/-- `Arm(t)` (R203). -/
def State.arm (s : State) (t : Nat) : State := { s with blk := { s.blk with clock := armedClock s.params t } }

/-- `Disarm()` (R204). -/
def State.disarm (s : State) : State := { s with blk := { s.blk with clock := .disarmed } }

/-! Status, posts and reports. -/

/-- `SetStatus(v)` (R223). -/
def State.setStatus (s : State) (v : Byte) : State := { s with blk := { s.blk with status := v } }

/-- `S.status.BUSY <- 1` (R145, R147, R161, R176). -/
def State.setBusy (s : State) : State := s.setStatus (setBits statusBusy s.blk.status)

/-- The flags a post sets (R412). -/
def Block.posted (b : Block) (dev : Target) (r : Reason) : Block :=
  { b with status := setBits statusIrq b.status, irqStatus := isrByte dev.code r.code, irqInProgress := true,
           irqLatch := true }

/-- `Post(dev, reason)`: the block's interrupt (R412). -/
def State.post (s : State) (dev : Target) (r : Reason) : State :=
  if ctrlIrqEna s.blk.ctrl then State.irqRaise { s with blk := s.blk.posted dev r }
  else { s with blk := s.blk.posted dev r }

/-- Write words into the status queue from index `i` on (R220). -/
def writeWords (q : Vector Word 256) (i : Nat) : List Word → Vector Word 256
  | [] => q
  | w :: ws => writeWords (q.setIfInBounds i w) (i + 1) ws

/-- `Report(w)` (R220). -/
def State.report (s : State) (ws : List Word) : State :=
  { s with blk := { s.blk with statusQueue := writeWords s.blk.statusQueue 0 ws, statusLen := ws.length, statusPos := 0 } }

/-- `S.phase <- P` (R10, R27). -/
def State.setPhase (s : State) (p : Phase) : State := { s with blk := { s.blk with phase := p } }

/-- `Resolve()` (R222). -/
def State.resolve (s : State) : State := s.setPhase .idle

/-- `Succeed(w)` (R226). -/
def State.succeed (s : State) (ws : List Word) : State :=
  (((s.report ws).setStatus statusReport).post s.blk.cmdDev .success).resolve

/-- The header of a report about the command in execution (R113). -/
def State.header (s : State) (len : BitVec 8) : Word := hdr s.blk.command s.blk.cmdDev.code len

/-- The nine words of an error report: header, two-word code, six zero words (R226, R240). -/
def State.errorWords (s : State) (e : ErrorCode) : List Word := [s.header 9, e.first, e.second, 0, 0, 0, 0, 0, 0]

/-- `Fail(e1, e2)` (R226). -/
def State.fail (s : State) (e : ErrorCode) : State :=
  (((s.report (s.errorWords e)).setStatus statusReport).post s.blk.cmdDev .failure).resolve

/-- `NotPresent()` (R236). -/
def State.notPresent (s : State) : State := s.fail Config.errNotPresent

/-- `RbaOutOfRange()` (R237). -/
def State.rbaOutOfRange (s : State) : State := s.fail s.params.errRbaRange

/-- `DefectiveBlock()` (R238). -/
def State.defectiveBlock (s : State) : State := s.fail s.params.errDefective

/-- `Unsupported()` (R239). -/
def State.unsupported (s : State) : State := s.fail s.params.errUnsupported

/-- The last-processed address (R241). -/
def Block.lpa (b : Block) : BitVec 32 := b.rba - 1

/-- The seven words of a completion report (R235). -/
def State.completionWords (s : State) : List Word :=
  [s.header 7, 0x0000, s.params.deviceStatusWord, 0x0000, lowWord s.blk.lpa, highWord s.blk.lpa, 0x0000]

/-- `CompleteOk()` (R235). -/
def State.completeOk (s : State) : State := s.succeed s.completionWords

/-- The end of a command without a report: `Report([]); SetStatus(0x01); Post(7, SUCCESS); Resolve()` (R327). -/
def State.completeQuietly (s : State) : State :=
  (((s.report []).setStatus statusNoReport).post .adapter .success).resolve

/-! The controller reset (R147, R456). -/

/-- `ResetStart()` (R147). -/
def State.resetStart (s : State) : State :=
  State.setBusy (State.arm { s with blk := { s.blk with resetPending := true } } s.params.tReset)

/-- What reset completion clears after its post (R456). -/
def Block.requestCleared (b : Block) : Block := { b with cmdReqInProgress := false, cmdPos := 0, phase := .idle }

/-- The word of the reset-complete report: `Hdr(0x0A, 7, 1)`, 0x01EA (R456). -/
def resetWord : Word := hdr 0x0A Target.adapter.code 1

/-- `ResetComplete()` (R456). -/
def State.resetComplete (s : State) : State :=
  let s1 := { s with blk := { s.blk with resetPending := false } }
  let s2 := ((s1.report [resetWord]).setStatus statusReport).post .adapter .resetComplete
  { s2 with blk := s2.blk.requestCleared }

/-! The DMA engine and the storage (R215, R216, R230). An exhausted list of answers is log entry 5. -/

/-- `DmaPush(S.dmaChannel, w)` (R230). -/
def State.dmaPush (s : State) (w : Word) : PushAnswer × State :=
  let a := s.ext.pushAnswers.headD .noData
  (a, State.call { s with ext := { s.ext with pushAnswers := s.ext.pushAnswers.tail } } (.dmaPush s.blk.dmaChannel w a))

/-- `DmaPull(S.dmaChannel)` (R230). -/
def State.dmaPull (s : State) : PullAnswer × State :=
  let a := s.ext.pullAnswers.headD .noData
  (a, State.call { s with ext := { s.ext with pullAnswers := s.ext.pullAnswers.tail } } (.dmaPull s.blk.dmaChannel a))

/-- The storage's next answer, consumed. -/
def State.storageAnswer (s : State) : StorageAnswer × State :=
  (s.ext.storageAnswers.headD .ok, { s with ext := { s.ext with storageAnswers := s.ext.storageAnswers.tail } })

/-- `StorageRead(d, lba)`: the sector, or none on `Fail` (R216, R83). -/
def State.storageRead (s : State) (d : DriveNo) (lba : BitVec 32) : Option Sector × State :=
  let a := s.storageAnswer.1
  let s1 := s.storageAnswer.2.call (.storageRead d lba a)
  match a with
  | .ok => (some (Memory.readSector (s.drive d).backing lba.toNat), s1)
  | .fail _ => (none, s1)

/-- `StorageWrite(d, lba, w)`: true on `Ok` (R216); what a failed write leaves is log entry 7. -/
def State.storageWrite (s : State) (d : DriveNo) (lba : BitVec 32) (w : Sector) : Bool × State :=
  let a := s.storageAnswer.1
  let s1 := s.storageAnswer.2.call (.storageWrite d lba a)
  let m := (s.drive d).backing
  match a with
  | .ok => (true, s1.setBacking d (Memory.writeSector m lba.toNat w))
  | .fail found => (false, s1.setBacking d (Memory.store m (sectorBytes * lba.toNat) (found.take sectorBytes)))

/-- `StorageZero(d, first, n)`: true on `Ok` (R216); what a failed zero leaves is log entry 7. -/
def State.storageZero (s : State) (d : DriveNo) (first n : Nat) : Bool × State :=
  let a := s.storageAnswer.1
  let s1 := s.storageAnswer.2.call (.storageZero d first n a)
  let m := (s.drive d).backing
  match a with
  | .ok => (true, s1.setBacking d (Memory.zero m (sectorBytes * first) (sectorBytes * n)))
  | .fail found =>
    (false, s1.setBacking d (Memory.store m (sectorBytes * first) (found.take (sectorBytes * n))))

/-! The fatal fault: the block's exception (R402). -/

/-- `raise Fatal(reason)`: the block is as it was before the step (`s0`) with `fault` set; the external calls the step
made before it (they stand in `s1`) are not undone (R402, R418; log entry 1). There is no return from it (R42). -/
def raiseFatal (s0 : State) (r : FatalReason) (s1 : State) : State :=
  { s1 with blk := { s0.blk with fault := some r } }

/-- A step that raises a fatal fault before it has done anything else. -/
def fatal (s : State) (r : FatalReason) : StepResult := .next (raiseFatal s r s)

/-! Host accesses (R80, R140). -/

/-- The width of a port access (R117). -/
inductive Width where
  | byte
  | word
deriving DecidableEq, Repr

/-- A read that does not reach the block: a free value of the host bus (R80, D42; log entry 12). -/
def State.busRead (s : State) (w : Width) : State :=
  { s with ext := { s.ext with
      busDraws := s.ext.busDraws + 1
      result := match w with
        | .byte => .byte (lowByte (Config.hostBus s.ext.busDraws))
        | .word => .word (Config.hostBus s.ext.busDraws) } }

/-- A host read: it reaches the block only while the interface is bound (R80, R140). -/
def hostRead (w : Width) (s : State) (body : State → StepResult) : StepResult :=
  if s.blk.ioEnabled then body s else .next (s.busRead w)

/-- A host write: it reaches the block only while the interface is bound (R80, R140). -/
def hostWrite (s : State) (body : State → StepResult) : StepResult :=
  if s.blk.ioEnabled then body s else .next s

end Sys2Proof.Machine
end

