-- ==== Sys2Proof/Machine/Engine.lean ====
section
/-! DEFINITION. The command engine (41_command_engine.md): a firing and its dispatch by phase, target validation, the
range check, the DMA handshake loops and the ends of the phases, shared by the commands. -/

namespace Sys2Proof.Machine

/-- How a piece of a phase's pseudocode ends. -/
inductive Flow where
  /-- It goes on. -/
  | cont (s : State)
  /-- It returned: the firing is over. -/
  | done (s : State)
  /-- It raised a fatal fault in state `s` (R402). -/
  | fatal (r : FatalReason) (s : State)
  /-- It met a case that the spec has no rule for. -/
  | stuck (f : Fault)

/-- One piece after another. -/
def Flow.andThen (x : Flow) (k : State → Flow) : Flow :=
  match x with
  | .cont s => k s
  | .done s => .done s
  | .fatal r s => .fatal r s
  | .stuck f => .stuck f

/-- The outcome of a firing that began in `s0` (R13, R402). -/
def Flow.outcome (s0 : State) : Flow → StepResult
  | .cont s => .next s
  | .done s => .next s
  | .fatal r s => .next (raiseFatal s0 r s)
  | .stuck f => .fault f

/-- The start of every firing (R201). -/
def State.startFiring (s : State) : State := { s with blk := { s.blk with clock := .disarmed, acc := 0 } }

/-- A firing of the clock with a command in execution whose phases are `p0`, `p1`, `p2` (R200 to R202, R207): it comes
only while the clock is armed; a pending reset is completed instead of the command; Idle does nothing more. -/
def firing (p0 p1 p2 : State → Flow) (s : State) : StepResult :=
  match s.blk.clock with
  | .disarmed => .next s
  | .armed _ =>
    if s.blk.resetPending then .next s.startFiring.resetComplete
    else
      match s.blk.phase with
      | .idle => .next s.startFiring
      | .p0 => (p0 s.startFiring).outcome s
      | .p1 => (p1 s.startFiring).outcome s
      | .p2 => (p2 s.startFiring).outcome s

/-- A phase that the command does not have (R111, R45; log entry 15). -/
def noPhase (_ : State) : Flow := .stuck .noSuchPhase

/-! Target validation (R210 to R214). -/

/-- `DriveOnly()` and the body for the addressed drive (R212). -/
def driveOnly (s : State) (body : DriveNo → Flow) : Flow :=
  match s.blk.cmdDev with
  | .adapter => .done s.unsupported
  | .drive d => body d

/-- `Present(d)` (R213). -/
def present (s : State) (d : DriveNo) (body : Flow) : Flow :=
  if (s.drive d).present then body else .done s.notPresent

/-- `Validate`: `DriveOnly(); Present(d)` (R214). -/
def validate (s : State) (body : DriveNo → Flow) : Flow := driveOnly s fun d => present s d (body d)

/-- `AdapterOnly()` (R211). -/
def adapterOnly (s : State) (body : Flow) : Flow :=
  match s.blk.cmdDev with
  | .adapter => body
  | .drive _ => .done s.unsupported

/-- `CheckNoPendingIrq()` (R404). -/
def checkNoPendingIrq (s : State) (body : Flow) : Flow :=
  if hasBit statusIrq s.blk.status || s.blk.irqInProgress then .fatal .irqAlreadyPending s else body

/-- `RangeCheck(d)`, on mathematical naturals (R234). -/
def rangeCheck (s : State) (d : DriveNo) (body : Flow) : Flow :=
  if (s.drive d).lastSector.toNat < s.blk.rba.toNat + s.blk.sectorCount.toNat then .done s.rbaOutOfRange else body

/-- The DMA-enable wait (R231). -/
def dmaGate (s : State) (body : Flow) : Flow :=
  if ctrlDmaEna s.blk.ctrl then body else .done (s.arm s.params.tBase)

/-! Setup phases. -/

/-- The loads of P0 of Read, Write, Write-Verify and Read-Verify (R261, R270, R278). -/
def State.loadTransfer (s : State) : State :=
  { s with blk := { s.blk with rba := s.blk.rbaOperand, sectorPos := 0, sectorCount := s.blk.countOperand } }

/-- The end of P0 of a DMA command: `SetStatus(0x23); Post(dev, XFER_READY); S.phase <- P1; S.dataPos <- 0;
Arm(T_BASE)` (R261, R270, R325). -/
def State.transferReady (s : State) (dev : Target) : State :=
  let s1 := (s.setStatus statusTransferReady).post dev .xferReady
  State.arm { s1 with blk := { s1.blk with phase := .p1, dataPos := 0 } } s.params.tBase

/-- The end of a phase without a post: `SetStatus(0x20); S.phase <- p; Arm(t)` (R206, R224). -/
def State.endPhase (s : State) (p : Phase) (t : Nat) : State := ((s.setStatus statusInProgress).setPhase p).arm t

/-- P0 of Read, Write and Write-Verify (R261, R270). -/
def transferSetup (s : State) : Flow :=
  validate s fun d => rangeCheck s.loadTransfer d (.done (s.loadTransfer.transferReady s.blk.cmdDev))

/-- P2 of every drive command (R267, R273, R279, R281, R285, R290, R292). -/
def driveCompletion (s : State) : Flow := validate s fun _ => .done s.completeOk

/-! The data-movement loops (R232, R233, R263, R272, R326, R330). -/

/-- Suspension: `Arm(T_BASE + S.acc)` (R232). -/
def State.suspend (s : State) : State := s.arm (s.blk.acc + s.params.tBase)

/-- The word under the cursor of the data buffer (R31). -/
def Block.dataWord (b : Block) : Word := b.dataBuf.getD b.dataPos 0

/-- `S.dataPos <- S.dataPos + 1`. -/
def State.nextWord (s : State) : State := { s with blk := { s.blk with dataPos := s.blk.dataPos + 1 } }

/-- Offer up to `n` words of the data buffer to the DMA engine, from the cursor on; suspend at the first that it does
not take (R232, R263, R264, R330). -/
def pushWords : Nat → State → Flow
  | 0, s => .cont s
  | n + 1, s =>
    match s.dmaPush s.blk.dataWord with
    | (.noData, s1) => .done s1.suspend
    | (.ok, s1) => pushWords n s1.nextWord

/-- Store a word pulled by DMA under the cursor and advance it (R272, R326). -/
def State.takeWord (s : State) (v : Word) : State :=
  { s with blk := { s.blk with dataBuf := s.blk.dataBuf.setIfInBounds s.blk.dataPos v, dataPos := s.blk.dataPos + 1 } }

/-- Ask the DMA engine for up to `n` words; suspend at the first that it does not have (R232, R272, R326). -/
def pullWords : Nat → State → Flow
  | 0, s => .cont s
  | n + 1, s =>
    match s.dmaPull with
    | (.noData, s1) => .done s1.suspend
    | (.word v, s1) => pullWords n (s1.takeWord v)

/-- The words of the sector in flight still to move: `while S.dataPos < 256`. -/
def State.wordsLeft (s : State) : Nat := 256 - s.blk.dataPos

/-- The sectors of the transfer still to move: `while S.sectorPos < S.sectorCount`. -/
def State.sectorsLeft (s : State) : Nat := s.blk.sectorCount.toNat - s.blk.sectorPos.toNat

/-- Run the loop body once for each of `n` sectors, unless one of them ends the firing. -/
def eachSector (body : State → Flow) : Nat → State → Flow
  | 0, s => .cont s
  | n + 1, s => (body s).andThen (eachSector body n)

/-- The end of a sector of a drive transfer: both cursors and the RBA advance (R263, R272). -/
def State.sectorDone (s : State) : State :=
  { s with blk := { s.blk with dataPos := 0, sectorPos := s.blk.sectorPos + 1, rba := s.blk.rba + 1 } }

/-- The end of a sector of a sector-buffer transfer (R326, R330). -/
def State.bufferSectorDone (s : State) : State :=
  { s with blk := { s.blk with dataPos := 0, sectorPos := s.blk.sectorPos + 1 } }

/-- The drive-end check (R217). -/
def pastEnd (s : State) (d : DriveNo) : Bool := (s.drive d).totalSectors.toNat ≤ s.blk.rba.toNat

/-- Fetch the sector at the RBA from storage when a sector starts (R217, R263, R266). -/
def fetchSector (d : DriveNo) (s : State) : Flow :=
  if s.blk.dataPos = 0 then
    if pastEnd s d then .fatal .pastEndOfDrive s
    else
      match s.storageRead d s.blk.rba with
      | (none, s1) => .done s1.defectiveBlock
      | (some w, s1) =>
        .cont { s1 with blk := { s1.blk with
          dataBuf := w, acc := s1.blk.acc + (Config.readTime d s1.blk.rba 1 + s1.params.tXfer) } }
  else .cont s

/-- One sector of a Read (R263). -/
def readSectorStep (d : DriveNo) (s : State) : Flow :=
  (fetchSector d s).andThen fun s1 => (pushWords s1.wordsLeft s1).andThen fun s2 => .cont s2.sectorDone

/-- Store the filled buffer at the RBA (R217, R271, R272). -/
def storeSector (d : DriveNo) (s : State) : Flow :=
  if pastEnd s d then .fatal .pastEndOfDrive s
  else
    match s.storageWrite d s.blk.rba s.blk.dataBuf with
    | (false, s1) => .done s1.defectiveBlock
    | (true, s1) =>
      .cont { s1 with blk := { s1.blk with
        acc := s1.blk.acc + (Config.writeTime d s1.blk.rba 1 + s1.params.tXfer) } }

/-- One sector of a Write or Write-Verify (R272). -/
def writeSectorStep (d : DriveNo) (s : State) : Flow :=
  (pullWords s.wordsLeft s).andThen fun s1 => (storeSector d s1).andThen fun s2 => .cont s2.sectorDone

/-- P1 of Read (R262 to R265). -/
def readData (s : State) : Flow :=
  validate s fun d => dmaGate s ((eachSector (readSectorStep d) s.sectorsLeft s).andThen fun s1 =>
    .done (s1.endPhase .p2 s1.blk.acc))

/-- P1 of Write and Write-Verify (R272, R274). -/
def writeData (s : State) : Flow :=
  validate s fun d => dmaGate s ((eachSector (writeSectorStep d) s.sectorsLeft s).andThen fun s1 =>
    .done (s1.endPhase .p2 s1.blk.acc))

/-! The sector buffer (R325 to R331). -/

/-- Sectors of the sector buffer are 0..255 (R32). -/
def bufferSectors : Nat := 256

/-- P0 of Sector-buffer write and read (R325, R329). -/
def bufferSetup (s : State) : Flow :=
  adapterOnly s (
    let s1 := { s with blk := { s.blk with sectorPos := 0, sectorCount := s.blk.countOperand } }
    if bufferSectors < s1.blk.sectorCount.toNat then .fatal .sectorBufferCount s1
    else .done (s1.transferReady .adapter))

/-- Copy the filled data buffer into the sector buffer (R326). -/
def saveToBuffer (s : State) : Flow :=
  if s.blk.sectorPos.toNat < bufferSectors then
    .cont { s with blk := { s.blk with
      sectorBuf := Memory.writeSector s.blk.sectorBuf s.blk.sectorPos.toNat s.blk.dataBuf } }
  else .stuck .noSuchSector

/-- Load the data buffer from the sector buffer when a sector starts (R330). -/
def loadFromBuffer (s : State) : Flow :=
  if s.blk.dataPos = 0 then
    if s.blk.sectorPos.toNat < bufferSectors then
      .cont { s with blk := { s.blk with dataBuf := Memory.readSector s.blk.sectorBuf s.blk.sectorPos.toNat } }
    else .stuck .noSuchSector
  else .cont s

/-- One sector of a Sector-buffer write (R326). -/
def bufferWriteStep (s : State) : Flow :=
  (pullWords s.wordsLeft s).andThen fun s1 => (saveToBuffer s1).andThen fun s2 => .cont s2.bufferSectorDone

/-- One sector of a Sector-buffer read (R330). -/
def bufferReadStep (s : State) : Flow :=
  (loadFromBuffer s).andThen fun s1 => (pushWords s1.wordsLeft s1).andThen fun s2 => .cont s2.bufferSectorDone

/-- P1 of Sector-buffer write (R326). -/
def bufferWriteData (s : State) : Flow :=
  adapterOnly s (dmaGate s ((eachSector bufferWriteStep s.sectorsLeft s).andThen fun s1 =>
    .done (s1.endPhase .p2 s1.params.tBase)))

/-- P1 of Sector-buffer read (R330). -/
def bufferReadData (s : State) : Flow :=
  adapterOnly s (dmaGate s ((eachSector bufferReadStep s.sectorsLeft s).andThen fun s1 =>
    .done (s1.endPhase .p2 s1.params.tBase)))

/-- P2 of Sector-buffer write and read (R327, R331). -/
def bufferCompletion (s : State) : Flow := adapterOnly s (.done s.completeQuietly)

end Sys2Proof.Machine
end

