-- ==== Sys2Proof/Machine/AdapterCommands.lean ====
section
/-! DEFINITION. The query, sector-buffer, diagnostic and unrecognized commands (43_adapter_and_query_commands.md): one meaning
for each row, a firing of the clock while that command is in execution. A single-phase command has the same body in
every phase (R202). -/

namespace Sys2Proof.Machine

/-- The Get-Device-Status report (R311). -/
def State.deviceStatusWords (s : State) : List Word :=
  [hdr 0x08 s.blk.cmdDev.code 9, 0x0000, s.params.deviceStatusWord, 0, 0, 0, 0, 0, 0]

/-- The body of Get-Device-Status (R310). -/
def deviceStatus (s : State) : Flow := validate s fun _ => checkNoPendingIrq s (.done (s.succeed s.deviceStatusWords))

/-- GET_DEVICE_STATUS (R310, R311). -/
def execGetDeviceStatus (s : State) : StepResult := firing deviceStatus deviceStatus deviceStatus s

/-- The adapter's configuration report (R314). -/
def State.adapterConfigReport (s : State) : List Word :=
  hdr 0x09 Target.adapter.code 6 :: s.params.adapterConfigWords.toList

/-- The body of Get-Device-Config for the adapter (R314). -/
def adapterConfig (s : State) : Flow := checkNoPendingIrq s (.done (s.succeed s.adapterConfigReport))

/-- GET_DEVICE_CONFIG_ADAPTER (R314). -/
def execGetDeviceConfigAdapter (s : State) : StepResult := firing adapterConfig adapterConfig adapterConfig s

/-- The configuration report of a drive (R317). -/
def State.driveConfigReport (s : State) (d : DriveNo) : List Word :=
  [hdr 0x09 s.blk.cmdDev.code 6, s.params.driveConfigW1, lowWord (s.drive d).totalSectors,
   highWord (s.drive d).totalSectors, (s.drive d).tracks, (s.drive d).spt ++ (s.drive d).heads]

/-- The body of Get-Device-Config for a drive (R316). -/
def driveConfig (s : State) : Flow := validate s fun d => checkNoPendingIrq s (.done (s.succeed (s.driveConfigReport d)))

/-- GET_DEVICE_CONFIG_DRIVE0 (R316, R317). -/
def execGetDeviceConfigDrive0 (s : State) : StepResult := firing driveConfig driveConfig driveConfig s

/-- GET_DEVICE_CONFIG_DRIVE1 (R316, R317). -/
def execGetDeviceConfigDrive1 (s : State) : StepResult := firing driveConfig driveConfig driveConfig s

/-- The configuration-register snapshot (R320). -/
def State.positionWords (s : State) : List Word :=
  [hdr 0x0A Target.adapter.code 5, s.blk.cfgPair 0, s.blk.cfgPair 2, s.blk.cfgPair 4, s.blk.cfgPair 6]

/-- The body of Get-Position-Info (R320). -/
def positionInfo (s : State) : Flow := adapterOnly s (checkNoPendingIrq s (.done (s.succeed s.positionWords)))

/-- GET_POSITION_INFO (R320). -/
def execGetPositionInfo (s : State) : StepResult := firing positionInfo positionInfo positionInfo s

/-- SECTOR_BUFFER_WRITE (R325 to R327). -/
def execSectorBufferWrite (s : State) : StepResult := firing bufferSetup bufferWriteData bufferCompletion s

/-- SECTOR_BUFFER_READ (R329 to R331). -/
def execSectorBufferRead (s : State) : StepResult := firing bufferSetup bufferReadData bufferCompletion s

/-- The diagnostic report (R335). -/
def diagnosticWords : List Word := [hdr 0x12 Target.adapter.code 2, 0x0000]

/-- The body of Diagnostic (R335). -/
def diagnosticBody (s : State) : Flow := adapterOnly s (checkNoPendingIrq s (.done (s.succeed diagnosticWords)))

/-- DIAGNOSTIC (R335). -/
def execDiagnostic (s : State) : StepResult := firing diagnosticBody diagnosticBody diagnosticBody s

/-- The body of every unrecognized code: the not-supported report, with no target, presence or pending check (R340). -/
def unrecognized (s : State) : Flow := .done s.unsupported

/-- UNRECOGNIZED_00: command code 0x00 (R112, R340). -/
def execUnrecognized00 (s : State) : StepResult := firing unrecognized unrecognized unrecognized s

/-- UNRECOGNIZED_07: command code 0x07 (R112, R340). -/
def execUnrecognized07 (s : State) : StepResult := firing unrecognized unrecognized unrecognized s

/-- UNRECOGNIZED_0B: command code 0x0B (R112, R340). -/
def execUnrecognized0B (s : State) : StepResult := firing unrecognized unrecognized unrecognized s

/-- UNRECOGNIZED_0C: command code 0x0C (R112, R340). -/
def execUnrecognized0C (s : State) : StepResult := firing unrecognized unrecognized unrecognized s

/-- UNRECOGNIZED_0D: command code 0x0D (R112, R340). -/
def execUnrecognized0D (s : State) : StepResult := firing unrecognized unrecognized unrecognized s

/-- UNRECOGNIZED_0E: command code 0x0E (R112, R340). -/
def execUnrecognized0E (s : State) : StepResult := firing unrecognized unrecognized unrecognized s

/-- UNRECOGNIZED_0F: command code 0x0F (R112, R340). -/
def execUnrecognized0F (s : State) : StepResult := firing unrecognized unrecognized unrecognized s

/-- UNRECOGNIZED_13: command code 0x13 (R112, R340). -/
def execUnrecognized13 (s : State) : StepResult := firing unrecognized unrecognized unrecognized s

/-- UNRECOGNIZED_14: command code 0x14 (R112, R340). -/
def execUnrecognized14 (s : State) : StepResult := firing unrecognized unrecognized unrecognized s

/-- UNRECOGNIZED_15: command code 0x15 (R112, R340). -/
def execUnrecognized15 (s : State) : StepResult := firing unrecognized unrecognized unrecognized s

/-- UNRECOGNIZED_18: command code 0x18 (R112, R340). -/
def execUnrecognized18 (s : State) : StepResult := firing unrecognized unrecognized unrecognized s

/-- UNRECOGNIZED_19: command code 0x19 (R112, R340). -/
def execUnrecognized19 (s : State) : StepResult := firing unrecognized unrecognized unrecognized s

/-- UNRECOGNIZED_1A: command code 0x1A (R112, R340). -/
def execUnrecognized1A (s : State) : StepResult := firing unrecognized unrecognized unrecognized s

/-- UNRECOGNIZED_1B: command code 0x1B (R112, R340). -/
def execUnrecognized1B (s : State) : StepResult := firing unrecognized unrecognized unrecognized s

/-- UNRECOGNIZED_1C: command code 0x1C (R112, R340). -/
def execUnrecognized1C (s : State) : StepResult := firing unrecognized unrecognized unrecognized s

/-- UNRECOGNIZED_1D: command code 0x1D (R112, R340). -/
def execUnrecognized1D (s : State) : StepResult := firing unrecognized unrecognized unrecognized s

/-- UNRECOGNIZED_1E: command code 0x1E (R112, R340). -/
def execUnrecognized1E (s : State) : StepResult := firing unrecognized unrecognized unrecognized s

/-- UNRECOGNIZED_1F: command code 0x1F (R112, R340). -/
def execUnrecognized1F (s : State) : StepResult := firing unrecognized unrecognized unrecognized s

end Sys2Proof.Machine
end

