-- ==== Sys2Proof/Machine/BusConfig.lean ====
section
/-! DEFINITION. The bus-configuration block (44_bus_configuration.md): one meaning for each CFGOP row. -/

namespace Sys2Proof.Machine

/-- The block after a configuration write of a byte above the threshold: the byte, the DMA channel and the enable
bit (R351, R352, R354). -/
def Block.configured (b : Block) (i : Nat) (v : Byte) : Block :=
  let c := b.cfg.setIfInBounds i v
  { b with cfg := c, dmaChannel := decodeDma (c.getD 2 0) b.dmaChannel, ioEnabled := cfgEnable (c.getD 2 0) }

/-- The ROM steps of a configuration write, calls to the host's memory map, newest first: only the adapter variant has them
(R351, R353, R358; log entry 11). `b` is the block after the write. -/
def romCalls (v : Variant) (b : Block) : List Call :=
  match v with
  | .integrated => []
  | .adapter =>
    (if cfgEnable (b.cfgByte 2) && Config.romMapped (b.cfgByte 3) then [.romEnable] else []) ++
      [.romPlace (b.cfgByte 3), .romDisable]

/-- `CfgWrite(i, v)` (R351). -/
def cfgWrite (i : Nat) (v : Byte) (s : State) : State :=
  if i < 2 then s
  else
    let b := s.blk.configured i v
    { s with blk := b, ext := { s.ext with calls := romCalls s.params.variant b ++ s.ext.calls } }

/-- CFG_READ (R355). -/
def execCfgRead (i : BitVec 3) (s : State) : StepResult := .next (s.answer (.byte (s.blk.cfgByte i.toNat)))

/-- CFG_WRITE_IGNORED: a write of index 0 or 1 (R351). -/
def execCfgWriteIgnored (i : BitVec 3) (v : Byte) (s : State) : StepResult := .next (cfgWrite i.toNat v s)

/-- CFG_WRITE_2_3: a write of index 2 or 3 (R351 to R354). -/
def execCfgWrite23 (i : BitVec 3) (v : Byte) (s : State) : StepResult := .next (cfgWrite i.toNat v s)

/-- CFG_WRITE_4_7: a write of index 4 to 7 (R351 to R354). -/
def execCfgWrite47 (i : BitVec 3) (v : Byte) (s : State) : StepResult := .next (cfgWrite i.toNat v s)

/-- CFG_FEEDBACK: the enable bit (R356). -/
def execCfgFeedback (s : State) : StepResult := .next (s.answer (.bit (cfgEnable (s.blk.cfgByte 2))))

/-- CFG_RESET: a write of 0 to byte 2 (R356). -/
def execCfgReset (s : State) : StepResult := .next (cfgWrite 2 0x00 s)

end Sys2Proof.Machine
end

