-- ==== Sys2Proof/Machine/DriveCommands.lean ====
section
/-! DEFINITION. The drive commands (42_drive_commands.md): one meaning for each row, a firing of the clock while that command
is in execution. The engine reads the target, the code and the operands from the state (`S.cmdDev`, `S.command`,
`S.cmdQueue`: R202, R212), which hold the fields of the row's command word. -/

namespace Sys2Proof.Machine

/-- READ (R260 to R268). -/
def execRead (s : State) : StepResult := firing transferSetup readData driveCompletion s

/-- WRITE (R270 to R273, R275). -/
def execWrite (s : State) : StepResult := firing transferSetup writeData driveCompletion s

/-- WRITE_VERIFY: every phase is the Write phase (R274, R275). -/
def execWriteVerify (s : State) : StepResult := firing transferSetup writeData driveCompletion s

/-- P0 of Read-Verify (R278). -/
def readVerifySetup (s : State) : Flow :=
  validate s fun d => rangeCheck s.loadTransfer d (.done (s.loadTransfer.endPhase .p2
    (Config.readTime d s.loadTransfer.blk.rba s.loadTransfer.blk.sectorCount.toNat + s.params.tBase)))

/-- READ_VERIFY (R278, R279). -/
def execReadVerify (s : State) : StepResult := firing readVerifySetup noPhase driveCompletion s

/-- P0 of Seek: the stored RBA and count are checked again (R280). -/
def seekSetup (s : State) : Flow :=
  validate s fun d => rangeCheck s d (.done (s.endPhase .p2 (Config.seekTime d s.blk.rba + s.params.tBase)))

/-- SEEK (R280, R281). -/
def execSeek (s : State) : StepResult := firing seekSetup noPhase driveCompletion s

/-- P0 of Park-Heads (R284). -/
def parkSetup (s : State) : Flow :=
  validate s fun d =>
    .done (State.endPhase { s with blk := { s.blk with rba := 0 } } .p2 (Config.seekTime d 0 + s.params.tBase))

/-- PARK_HEADS (R284, R285). -/
def execParkHeads (s : State) : StepResult := firing parkSetup noPhase driveCompletion s

/-- P0 of Format-Unit (R288). -/
def formatUnitSetup (s : State) : Flow :=
  validate s fun d =>
    .done (State.endPhase
      { s with blk := { s.blk with rba := (s.drive d).lastSector, sectorPos := 0, sectorCount := s.blk.countOperand } }
      .p1 s.params.tBase)

/-- P1 of Format-Unit: zero RBA 0..LastSector(d) (R289). -/
def formatUnitData (s : State) : Flow :=
  validate s fun d =>
    match s.storageZero d 0 ((s.drive d).lastSector.toNat + 1) with
    | (false, s1) => .done s1.defectiveBlock
    | (true, s1) => .done (s1.endPhase .p2 s1.params.tBase)

/-- FORMAT_UNIT (R288 to R290). -/
def execFormatUnit (s : State) : StepResult := firing formatUnitSetup formatUnitData driveCompletion s

/-- P0 of Format-Prepare: as Format-Unit's without the count (R292). -/
def formatPrepareSetup (s : State) : Flow :=
  validate s fun d =>
    .done (State.endPhase { s with blk := { s.blk with rba := (s.drive d).lastSector, sectorPos := 0 } } .p1 s.params.tBase)

/-- P1 of Format-Prepare: no storage mutation (R292). -/
def formatPrepareData (s : State) : Flow := validate s fun _ => .done (s.endPhase .p2 s.params.tBase)

/-- FORMAT_PREPARE (R292). -/
def execFormatPrepare (s : State) : StepResult := firing formatPrepareSetup formatPrepareData driveCompletion s

end Sys2Proof.Machine
end

