-- ==== Sys2Proof/Machine/Attention.lean ====
section
/-! DEFINITION. The Attention register (40_register_interface.md R160 to R166): its requests, and one meaning for each ATTN
row of the opcode table. An ATTN row is the byte write at offset 3, so it reaches the block only while the interface is
bound (R80, R140). -/

namespace Sys2Proof.Machine

/-- Whether a command is in progress for a command request: the guard, the engine or a pending reset (R162). -/
def Block.commandInProgress (b : Block) : Bool := b.cmdReqInProgress || b.phase != .idle || b.resetPending

/-- What an accepted command request writes (R161). -/
def Block.requested (b : Block) (t : Target) : Block :=
  { b with cmdReqInProgress := true, cmdDev := t, status := setBits statusBusy b.status, cmdPos := 0, statusPos := 0 }

/-- `CommandRequest(dev)` (R161, R162). -/
def commandRequest (t : Target) (s : State) : StepResult :=
  if s.blk.commandInProgress then fatal s .commandWhileBusy
  else .next { s with blk := s.blk.requested t }

/-- What an EOI clears (R163). -/
def Block.acknowledged (b : Block) : Block :=
  { b with irqInProgress := false, status := clearBits statusIrq b.status, irqLatch := false }

/-- `EndOfInterrupt()`: the return from a post (R163, R164, R419). -/
def endOfInterrupt (s : State) : StepResult := .next (State.irqLower { s with blk := s.blk.acknowledged })

/-- The request of an attention byte to a target that exists (R160). -/
def attentionRequest (t : Target) (req : BitVec 4) (s : State) : StepResult :=
  if req = 0x1 then commandRequest t s
  else if req = 0x2 then endOfInterrupt s
  else if req = 0x4 ∧ t = .adapter then .next s.resetStart
  else fatal s .badAttentionRequest

/-- The Attention write: the device code is checked first (R160, R416). -/
def attention (v : Byte) (s : State) : StepResult :=
  match targetOf (attnDev v) with
  | none => fatal s .badAttentionDevice
  | some t => attentionRequest t (attnReq v) s

/-- ATTN_CMDREQ_AD: command request to the adapter (R161). -/
def execAttnCmdreqAD (s : State) : StepResult := hostWrite s (commandRequest .adapter)

/-- ATTN_EOI_AD: end of interrupt, device code of the adapter (R163, R164). -/
def execAttnEoiAD (s : State) : StepResult := hostWrite s endOfInterrupt

/-- ATTN_CMDREQ_D0: command request to drive 0 (R161). -/
def execAttnCmdreqD0 (s : State) : StepResult := hostWrite s (commandRequest (.drive .drive0))

/-- ATTN_EOI_D0: end of interrupt, device code of drive 0 (R163, R164). -/
def execAttnEoiD0 (s : State) : StepResult := hostWrite s endOfInterrupt

/-- ATTN_CMDREQ_D1: command request to drive 1 (R161). -/
def execAttnCmdreqD1 (s : State) : StepResult := hostWrite s (commandRequest (.drive .drive1))

/-- ATTN_EOI_D1: end of interrupt, device code of drive 1 (R163, R164). -/
def execAttnEoiD1 (s : State) : StepResult := hostWrite s endOfInterrupt

/-- ATTN_RESET_AD: controller reset (R165). -/
def execAttnResetAD (s : State) : StepResult := hostWrite s fun s => .next s.resetStart

/-- ATTN_BADDEV_2: device code 2, any request (R166). -/
def execAttnBaddev2 (_req : BitVec 4) (s : State) : StepResult := hostWrite s fun s => fatal s .badAttentionDevice

/-- ATTN_BADDEV_3: device code 3, any request (R166). -/
def execAttnBaddev3 (_req : BitVec 4) (s : State) : StepResult := hostWrite s fun s => fatal s .badAttentionDevice

/-- ATTN_BADDEV_4: device code 4, any request (R166). -/
def execAttnBaddev4 (_req : BitVec 4) (s : State) : StepResult := hostWrite s fun s => fatal s .badAttentionDevice

/-- ATTN_BADDEV_5: device code 5, any request (R166). -/
def execAttnBaddev5 (_req : BitVec 4) (s : State) : StepResult := hostWrite s fun s => fatal s .badAttentionDevice

/-- ATTN_BADDEV_6: device code 6, any request (R166). -/
def execAttnBaddev6 (_req : BitVec 4) (s : State) : StepResult := hostWrite s fun s => fatal s .badAttentionDevice

/-- ATTN_BADREQ_AD_0: request 0x0 to the adapter (R166). -/
def execAttnBadreqAD_0 (s : State) : StepResult := hostWrite s fun s => fatal s .badAttentionRequest

/-- ATTN_BADREQ_AD_3: request 0x3 to the adapter (R166). -/
def execAttnBadreqAD_3 (s : State) : StepResult := hostWrite s fun s => fatal s .badAttentionRequest

/-- ATTN_BADREQ_AD_5: request 0x5 to the adapter (R166). -/
def execAttnBadreqAD_5 (s : State) : StepResult := hostWrite s fun s => fatal s .badAttentionRequest

/-- ATTN_BADREQ_AD_6: request 0x6 to the adapter (R166). -/
def execAttnBadreqAD_6 (s : State) : StepResult := hostWrite s fun s => fatal s .badAttentionRequest

/-- ATTN_BADREQ_AD_7: request 0x7 to the adapter (R166). -/
def execAttnBadreqAD_7 (s : State) : StepResult := hostWrite s fun s => fatal s .badAttentionRequest

/-- ATTN_BADREQ_AD_8: request 0x8 to the adapter (R166). -/
def execAttnBadreqAD_8 (s : State) : StepResult := hostWrite s fun s => fatal s .badAttentionRequest

/-- ATTN_BADREQ_AD_9: request 0x9 to the adapter (R166). -/
def execAttnBadreqAD_9 (s : State) : StepResult := hostWrite s fun s => fatal s .badAttentionRequest

/-- ATTN_BADREQ_AD_A: request 0xA to the adapter (R166). -/
def execAttnBadreqAD_A (s : State) : StepResult := hostWrite s fun s => fatal s .badAttentionRequest

/-- ATTN_BADREQ_AD_B: request 0xB to the adapter (R166). -/
def execAttnBadreqAD_B (s : State) : StepResult := hostWrite s fun s => fatal s .badAttentionRequest

/-- ATTN_BADREQ_AD_C: request 0xC to the adapter (R166). -/
def execAttnBadreqAD_C (s : State) : StepResult := hostWrite s fun s => fatal s .badAttentionRequest

/-- ATTN_BADREQ_AD_D: request 0xD to the adapter (R166). -/
def execAttnBadreqAD_D (s : State) : StepResult := hostWrite s fun s => fatal s .badAttentionRequest

/-- ATTN_BADREQ_AD_E: request 0xE to the adapter (R166). -/
def execAttnBadreqAD_E (s : State) : StepResult := hostWrite s fun s => fatal s .badAttentionRequest

/-- ATTN_BADREQ_AD_F: request 0xF to the adapter (R166). -/
def execAttnBadreqAD_F (s : State) : StepResult := hostWrite s fun s => fatal s .badAttentionRequest

/-- ATTN_BADREQ_D0_0: request 0x0 to drive 0 (R166). -/
def execAttnBadreqD0_0 (s : State) : StepResult := hostWrite s fun s => fatal s .badAttentionRequest

/-- ATTN_BADREQ_D0_3: request 0x3 to drive 0 (R166). -/
def execAttnBadreqD0_3 (s : State) : StepResult := hostWrite s fun s => fatal s .badAttentionRequest

/-- ATTN_BADREQ_D0_4: request 0x4 to drive 0 (R166). -/
def execAttnBadreqD0_4 (s : State) : StepResult := hostWrite s fun s => fatal s .badAttentionRequest

/-- ATTN_BADREQ_D0_5: request 0x5 to drive 0 (R166). -/
def execAttnBadreqD0_5 (s : State) : StepResult := hostWrite s fun s => fatal s .badAttentionRequest

/-- ATTN_BADREQ_D0_6: request 0x6 to drive 0 (R166). -/
def execAttnBadreqD0_6 (s : State) : StepResult := hostWrite s fun s => fatal s .badAttentionRequest

/-- ATTN_BADREQ_D0_7: request 0x7 to drive 0 (R166). -/
def execAttnBadreqD0_7 (s : State) : StepResult := hostWrite s fun s => fatal s .badAttentionRequest

/-- ATTN_BADREQ_D0_8: request 0x8 to drive 0 (R166). -/
def execAttnBadreqD0_8 (s : State) : StepResult := hostWrite s fun s => fatal s .badAttentionRequest

/-- ATTN_BADREQ_D0_9: request 0x9 to drive 0 (R166). -/
def execAttnBadreqD0_9 (s : State) : StepResult := hostWrite s fun s => fatal s .badAttentionRequest

/-- ATTN_BADREQ_D0_A: request 0xA to drive 0 (R166). -/
def execAttnBadreqD0_A (s : State) : StepResult := hostWrite s fun s => fatal s .badAttentionRequest

/-- ATTN_BADREQ_D0_B: request 0xB to drive 0 (R166). -/
def execAttnBadreqD0_B (s : State) : StepResult := hostWrite s fun s => fatal s .badAttentionRequest

/-- ATTN_BADREQ_D0_C: request 0xC to drive 0 (R166). -/
def execAttnBadreqD0_C (s : State) : StepResult := hostWrite s fun s => fatal s .badAttentionRequest

/-- ATTN_BADREQ_D0_D: request 0xD to drive 0 (R166). -/
def execAttnBadreqD0_D (s : State) : StepResult := hostWrite s fun s => fatal s .badAttentionRequest

/-- ATTN_BADREQ_D0_E: request 0xE to drive 0 (R166). -/
def execAttnBadreqD0_E (s : State) : StepResult := hostWrite s fun s => fatal s .badAttentionRequest

/-- ATTN_BADREQ_D0_F: request 0xF to drive 0 (R166). -/
def execAttnBadreqD0_F (s : State) : StepResult := hostWrite s fun s => fatal s .badAttentionRequest

/-- ATTN_BADREQ_D1_0: request 0x0 to drive 1 (R166). -/
def execAttnBadreqD1_0 (s : State) : StepResult := hostWrite s fun s => fatal s .badAttentionRequest

/-- ATTN_BADREQ_D1_3: request 0x3 to drive 1 (R166). -/
def execAttnBadreqD1_3 (s : State) : StepResult := hostWrite s fun s => fatal s .badAttentionRequest

/-- ATTN_BADREQ_D1_4: request 0x4 to drive 1 (R166). -/
def execAttnBadreqD1_4 (s : State) : StepResult := hostWrite s fun s => fatal s .badAttentionRequest

/-- ATTN_BADREQ_D1_5: request 0x5 to drive 1 (R166). -/
def execAttnBadreqD1_5 (s : State) : StepResult := hostWrite s fun s => fatal s .badAttentionRequest

/-- ATTN_BADREQ_D1_6: request 0x6 to drive 1 (R166). -/
def execAttnBadreqD1_6 (s : State) : StepResult := hostWrite s fun s => fatal s .badAttentionRequest

/-- ATTN_BADREQ_D1_7: request 0x7 to drive 1 (R166). -/
def execAttnBadreqD1_7 (s : State) : StepResult := hostWrite s fun s => fatal s .badAttentionRequest

/-- ATTN_BADREQ_D1_8: request 0x8 to drive 1 (R166). -/
def execAttnBadreqD1_8 (s : State) : StepResult := hostWrite s fun s => fatal s .badAttentionRequest

/-- ATTN_BADREQ_D1_9: request 0x9 to drive 1 (R166). -/
def execAttnBadreqD1_9 (s : State) : StepResult := hostWrite s fun s => fatal s .badAttentionRequest

/-- ATTN_BADREQ_D1_A: request 0xA to drive 1 (R166). -/
def execAttnBadreqD1_A (s : State) : StepResult := hostWrite s fun s => fatal s .badAttentionRequest

/-- ATTN_BADREQ_D1_B: request 0xB to drive 1 (R166). -/
def execAttnBadreqD1_B (s : State) : StepResult := hostWrite s fun s => fatal s .badAttentionRequest

/-- ATTN_BADREQ_D1_C: request 0xC to drive 1 (R166). -/
def execAttnBadreqD1_C (s : State) : StepResult := hostWrite s fun s => fatal s .badAttentionRequest

/-- ATTN_BADREQ_D1_D: request 0xD to drive 1 (R166). -/
def execAttnBadreqD1_D (s : State) : StepResult := hostWrite s fun s => fatal s .badAttentionRequest

/-- ATTN_BADREQ_D1_E: request 0xE to drive 1 (R166). -/
def execAttnBadreqD1_E (s : State) : StepResult := hostWrite s fun s => fatal s .badAttentionRequest

/-- ATTN_BADREQ_D1_F: request 0xF to drive 1 (R166). -/
def execAttnBadreqD1_F (s : State) : StepResult := hostWrite s fun s => fatal s .badAttentionRequest

end Sys2Proof.Machine
end

