-- ==== Sys2Proof/Machine/Port.lean ====
section
/-! DEFINITION. The register interface (40_register_interface.md): one meaning for each PORT row of the opcode table. -/

namespace Sys2Proof.Machine

/-! Reads. -/

/-- RD_STATUS: the Basic-Status read (R141). -/
def execRdStatus (s : State) : StepResult := hostRead .byte s fun s => .next (s.answer (.byte s.blk.status))

/-- RD_ISR: the Interrupt-Status read clears `IRQ` (R142). -/
def execRdIsr (s : State) : StepResult :=
  hostRead .byte s fun s =>
    .next ((s.answer (.byte s.blk.irqStatus)).setStatus (clearBits statusIrq s.blk.status))

/-- The state after a Status-Interface read within the length: the cursor advances; at the last word `SOF` clears and the
queue empties (R181). -/
def Block.popped (b : Block) : Block :=
  if b.statusLen ≤ b.statusPos + 1 then
    { b with status := clearBits statusSof b.status, statusPos := 0, statusLen := 0 }
  else { b with statusPos := b.statusPos + 1 }

/-- RD_SIR: the Status-Interface read (R181). -/
def execRdSir (s : State) : StepResult :=
  hostRead .word s fun s =>
    if s.blk.statusLen ≤ s.blk.statusPos then .next (s.answer (.word 0x0000))
    else .next { s.answer (.word (s.blk.statusQueue.getD s.blk.statusPos 0)) with blk := s.blk.popped }

/-! Basic Control. -/

/-- The effect of a change of `RESET`: a falling edge starts the reset sequence, a rising edge cancels the clock and sets
`BUSY` (R145). -/
def resetEdge (old v : Byte) (s : State) : State :=
  if ctrlReset old ∧ ¬ ctrlReset v then s.resetStart
  else if ¬ ctrlReset old ∧ ctrlReset v then s.disarm.setBusy
  else s

/-- The effect of a change of `IRQ_ENA` on the line (R145, R413). -/
def irqEnaEdge (old v : Byte) (s : State) : State :=
  if ¬ ctrlIrqEna old ∧ ctrlIrqEna v ∧ s.blk.irqLatch then s.irqRaise
  else if ctrlIrqEna old ∧ ¬ ctrlIrqEna v ∧ s.blk.irqLatch then s.irqLower
  else s

/-- `S.ctrl <- v` (R145). -/
def State.setCtrl (s : State) (v : Byte) : State := { s with blk := { s.blk with ctrl := v } }

/-- WR_CTRL: the Basic-Control write (R145, R146, R416). -/
def execWrCtrl (v : Byte) (s : State) : StepResult :=
  hostWrite s fun s => .next (irqEnaEdge s.blk.ctrl v ((resetEdge s.blk.ctrl v s).setCtrl v))

/-! Attention. -/

/-- WR_ATTN: the Attention write (R160). -/
def execWrAttn (v : Byte) (s : State) : StepResult := hostWrite s (attention v)

/-! The Command-Interface register. -/

/-- The queue after a command word (R175). -/
def Block.queued (b : Block) (v : Word) : Block :=
  { b with cmdQueue := b.cmdQueue.setIfInBounds b.cmdPos v, cmdPos := b.cmdPos + 1 }

/-- What a completed block starts, but for the clock (R176). -/
def Block.started (b : Block) : Block :=
  { b with cmdPos := 0, cmdReqInProgress := false, phase := .p0, command := cmd0Code (b.cmdWord 0), dataPos := 0,
           status := setBits statusBusy b.status }

/-- `BlockComplete()`, on the state `s` with the block's last word queued; `s0` is the state before the write (R176). -/
def blockComplete (s0 s : State) : StepResult :=
  if cmd0Dev (s.blk.cmdWord 0) ≠ s.blk.cmdDev.code then .next (raiseFatal s0 .targetMismatch s)
  else .next (State.arm { s with blk := s.blk.started } s.params.tBase)

/-- WR_CIR: the Command-Interface write (R175 to R178). -/
def execWrCir (v : Word) (s : State) : StepResult :=
  hostWrite s fun s =>
    if ¬ s.blk.cmdReqInProgress then fatal s .commandWordWithoutRequest
    else if 4 ≤ s.blk.cmdPos then fatal s .commandQueueOverflow
    else
      let s1 := { s with blk := s.blk.queued v }
      if s1.blk.cmdPos = blockLength (s1.blk.cmdWord 0) then blockComplete s s1 else .next s1

/-! Unwired descriptors (R143, R74). -/

/-- UNWIRED_RB0: byte read at offset 0 (R143). -/
def execUnwiredRB0 (s : State) : StepResult := hostRead .byte s fun s => fatal s .unwiredPort

/-- UNWIRED_RB1: byte read at offset 1 (R143). -/
def execUnwiredRB1 (s : State) : StepResult := hostRead .byte s fun s => fatal s .unwiredPort

/-- UNWIRED_RB4: byte read at offset 4 (R143). -/
def execUnwiredRB4 (s : State) : StepResult := hostRead .byte s fun s => fatal s .unwiredPort

/-- UNWIRED_RB5: byte read at offset 5 (R143). -/
def execUnwiredRB5 (s : State) : StepResult := hostRead .byte s fun s => fatal s .unwiredPort

/-- UNWIRED_RB6: byte read at offset 6 (R143). -/
def execUnwiredRB6 (s : State) : StepResult := hostRead .byte s fun s => fatal s .unwiredPort

/-- UNWIRED_RB7: byte read at offset 7 (R143). -/
def execUnwiredRB7 (s : State) : StepResult := hostRead .byte s fun s => fatal s .unwiredPort

/-- UNWIRED_RW1: word read at offset 1 (R143). -/
def execUnwiredRW1 (s : State) : StepResult := hostRead .word s fun s => fatal s .unwiredPort

/-- UNWIRED_RW2: word read at offset 2 (R143). -/
def execUnwiredRW2 (s : State) : StepResult := hostRead .word s fun s => fatal s .unwiredPort

/-- UNWIRED_RW3: word read at offset 3 (R143). -/
def execUnwiredRW3 (s : State) : StepResult := hostRead .word s fun s => fatal s .unwiredPort

/-- UNWIRED_RW4: word read at offset 4 (R143). -/
def execUnwiredRW4 (s : State) : StepResult := hostRead .word s fun s => fatal s .unwiredPort

/-- UNWIRED_RW5: word read at offset 5 (R143). -/
def execUnwiredRW5 (s : State) : StepResult := hostRead .word s fun s => fatal s .unwiredPort

/-- UNWIRED_RW6: word read at offset 6 (R143). -/
def execUnwiredRW6 (s : State) : StepResult := hostRead .word s fun s => fatal s .unwiredPort

/-- UNWIRED_RW7: word read at offset 7 (R143). -/
def execUnwiredRW7 (s : State) : StepResult := hostRead .word s fun s => fatal s .unwiredPort

/-- UNWIRED_WB0: byte write at offset 0 (R143). -/
def execUnwiredWB0 (_v : Byte) (s : State) : StepResult := hostWrite s fun s => fatal s .unwiredPort

/-- UNWIRED_WB1: byte write at offset 1 (R143). -/
def execUnwiredWB1 (_v : Byte) (s : State) : StepResult := hostWrite s fun s => fatal s .unwiredPort

/-- UNWIRED_WB4: byte write at offset 4 (R143). -/
def execUnwiredWB4 (_v : Byte) (s : State) : StepResult := hostWrite s fun s => fatal s .unwiredPort

/-- UNWIRED_WB5: byte write at offset 5 (R143). -/
def execUnwiredWB5 (_v : Byte) (s : State) : StepResult := hostWrite s fun s => fatal s .unwiredPort

/-- UNWIRED_WB6: byte write at offset 6 (R143). -/
def execUnwiredWB6 (_v : Byte) (s : State) : StepResult := hostWrite s fun s => fatal s .unwiredPort

/-- UNWIRED_WB7: byte write at offset 7 (R143). -/
def execUnwiredWB7 (_v : Byte) (s : State) : StepResult := hostWrite s fun s => fatal s .unwiredPort

/-- UNWIRED_WW1: word write at offset 1 (R143). -/
def execUnwiredWW1 (_v : Word) (s : State) : StepResult := hostWrite s fun s => fatal s .unwiredPort

/-- UNWIRED_WW2: word write at offset 2 (R143). -/
def execUnwiredWW2 (_v : Word) (s : State) : StepResult := hostWrite s fun s => fatal s .unwiredPort

/-- UNWIRED_WW3: word write at offset 3 (R143). -/
def execUnwiredWW3 (_v : Word) (s : State) : StepResult := hostWrite s fun s => fatal s .unwiredPort

/-- UNWIRED_WW4: word write at offset 4 (R143). -/
def execUnwiredWW4 (_v : Word) (s : State) : StepResult := hostWrite s fun s => fatal s .unwiredPort

/-- UNWIRED_WW5: word write at offset 5 (R143). -/
def execUnwiredWW5 (_v : Word) (s : State) : StepResult := hostWrite s fun s => fatal s .unwiredPort

/-- UNWIRED_WW6: word write at offset 6 (R143). -/
def execUnwiredWW6 (_v : Word) (s : State) : StepResult := hostWrite s fun s => fatal s .unwiredPort

/-- UNWIRED_WW7: word write at offset 7 (R143). -/
def execUnwiredWW7 (_v : Word) (s : State) : StepResult := hostWrite s fun s => fatal s .unwiredPort

end Sys2Proof.Machine
end

