-- ==== Sys2Proof/Machine/Dispatch.lean ====
section
/-! DEFINITION. The meaning of every instruction, one arm a constructor. -/

namespace Sys2Proof.Machine

def exec (i : Instr) (s : State) : Host.Outcome State Fault Refusal :=
  match i with
  | .rdSir => Sys2Proof.Machine.execRdSir s
  | .wrCir v => Sys2Proof.Machine.execWrCir v s
  | .rdStatus => Sys2Proof.Machine.execRdStatus s
  | .wrCtrl v => Sys2Proof.Machine.execWrCtrl v s
  | .rdIsr => Sys2Proof.Machine.execRdIsr s
  | .wrAttn v => Sys2Proof.Machine.execWrAttn v s
  | .unwiredRB0 => Sys2Proof.Machine.execUnwiredRB0 s
  | .unwiredRB1 => Sys2Proof.Machine.execUnwiredRB1 s
  | .unwiredRB4 => Sys2Proof.Machine.execUnwiredRB4 s
  | .unwiredRB5 => Sys2Proof.Machine.execUnwiredRB5 s
  | .unwiredRB6 => Sys2Proof.Machine.execUnwiredRB6 s
  | .unwiredRB7 => Sys2Proof.Machine.execUnwiredRB7 s
  | .unwiredRW1 => Sys2Proof.Machine.execUnwiredRW1 s
  | .unwiredRW2 => Sys2Proof.Machine.execUnwiredRW2 s
  | .unwiredRW3 => Sys2Proof.Machine.execUnwiredRW3 s
  | .unwiredRW4 => Sys2Proof.Machine.execUnwiredRW4 s
  | .unwiredRW5 => Sys2Proof.Machine.execUnwiredRW5 s
  | .unwiredRW6 => Sys2Proof.Machine.execUnwiredRW6 s
  | .unwiredRW7 => Sys2Proof.Machine.execUnwiredRW7 s
  | .unwiredWB0 v => Sys2Proof.Machine.execUnwiredWB0 v s
  | .unwiredWB1 v => Sys2Proof.Machine.execUnwiredWB1 v s
  | .unwiredWB4 v => Sys2Proof.Machine.execUnwiredWB4 v s
  | .unwiredWB5 v => Sys2Proof.Machine.execUnwiredWB5 v s
  | .unwiredWB6 v => Sys2Proof.Machine.execUnwiredWB6 v s
  | .unwiredWB7 v => Sys2Proof.Machine.execUnwiredWB7 v s
  | .unwiredWW1 v => Sys2Proof.Machine.execUnwiredWW1 v s
  | .unwiredWW2 v => Sys2Proof.Machine.execUnwiredWW2 v s
  | .unwiredWW3 v => Sys2Proof.Machine.execUnwiredWW3 v s
  | .unwiredWW4 v => Sys2Proof.Machine.execUnwiredWW4 v s
  | .unwiredWW5 v => Sys2Proof.Machine.execUnwiredWW5 v s
  | .unwiredWW6 v => Sys2Proof.Machine.execUnwiredWW6 v s
  | .unwiredWW7 v => Sys2Proof.Machine.execUnwiredWW7 v s
  | .attnCmdreqAD => Sys2Proof.Machine.execAttnCmdreqAD s
  | .attnEoiAD => Sys2Proof.Machine.execAttnEoiAD s
  | .attnCmdreqD0 => Sys2Proof.Machine.execAttnCmdreqD0 s
  | .attnEoiD0 => Sys2Proof.Machine.execAttnEoiD0 s
  | .attnCmdreqD1 => Sys2Proof.Machine.execAttnCmdreqD1 s
  | .attnEoiD1 => Sys2Proof.Machine.execAttnEoiD1 s
  | .attnResetAD => Sys2Proof.Machine.execAttnResetAD s
  | .attnBaddev2 req => Sys2Proof.Machine.execAttnBaddev2 req s
  | .attnBaddev3 req => Sys2Proof.Machine.execAttnBaddev3 req s
  | .attnBaddev4 req => Sys2Proof.Machine.execAttnBaddev4 req s
  | .attnBaddev5 req => Sys2Proof.Machine.execAttnBaddev5 req s
  | .attnBaddev6 req => Sys2Proof.Machine.execAttnBaddev6 req s
  | .attnBadreqAD_0 => Sys2Proof.Machine.execAttnBadreqAD_0 s
  | .attnBadreqAD_3 => Sys2Proof.Machine.execAttnBadreqAD_3 s
  | .attnBadreqAD_5 => Sys2Proof.Machine.execAttnBadreqAD_5 s
  | .attnBadreqAD_6 => Sys2Proof.Machine.execAttnBadreqAD_6 s
  | .attnBadreqAD_7 => Sys2Proof.Machine.execAttnBadreqAD_7 s
  | .attnBadreqAD_8 => Sys2Proof.Machine.execAttnBadreqAD_8 s
  | .attnBadreqAD_9 => Sys2Proof.Machine.execAttnBadreqAD_9 s
  | .attnBadreqAD_A => Sys2Proof.Machine.execAttnBadreqAD_A s
  | .attnBadreqAD_B => Sys2Proof.Machine.execAttnBadreqAD_B s
  | .attnBadreqAD_C => Sys2Proof.Machine.execAttnBadreqAD_C s
  | .attnBadreqAD_D => Sys2Proof.Machine.execAttnBadreqAD_D s
  | .attnBadreqAD_E => Sys2Proof.Machine.execAttnBadreqAD_E s
  | .attnBadreqAD_F => Sys2Proof.Machine.execAttnBadreqAD_F s
  | .attnBadreqD0_0 => Sys2Proof.Machine.execAttnBadreqD0_0 s
  | .attnBadreqD0_3 => Sys2Proof.Machine.execAttnBadreqD0_3 s
  | .attnBadreqD0_4 => Sys2Proof.Machine.execAttnBadreqD0_4 s
  | .attnBadreqD0_5 => Sys2Proof.Machine.execAttnBadreqD0_5 s
  | .attnBadreqD0_6 => Sys2Proof.Machine.execAttnBadreqD0_6 s
  | .attnBadreqD0_7 => Sys2Proof.Machine.execAttnBadreqD0_7 s
  | .attnBadreqD0_8 => Sys2Proof.Machine.execAttnBadreqD0_8 s
  | .attnBadreqD0_9 => Sys2Proof.Machine.execAttnBadreqD0_9 s
  | .attnBadreqD0_A => Sys2Proof.Machine.execAttnBadreqD0_A s
  | .attnBadreqD0_B => Sys2Proof.Machine.execAttnBadreqD0_B s
  | .attnBadreqD0_C => Sys2Proof.Machine.execAttnBadreqD0_C s
  | .attnBadreqD0_D => Sys2Proof.Machine.execAttnBadreqD0_D s
  | .attnBadreqD0_E => Sys2Proof.Machine.execAttnBadreqD0_E s
  | .attnBadreqD0_F => Sys2Proof.Machine.execAttnBadreqD0_F s
  | .attnBadreqD1_0 => Sys2Proof.Machine.execAttnBadreqD1_0 s
  | .attnBadreqD1_3 => Sys2Proof.Machine.execAttnBadreqD1_3 s
  | .attnBadreqD1_4 => Sys2Proof.Machine.execAttnBadreqD1_4 s
  | .attnBadreqD1_5 => Sys2Proof.Machine.execAttnBadreqD1_5 s
  | .attnBadreqD1_6 => Sys2Proof.Machine.execAttnBadreqD1_6 s
  | .attnBadreqD1_7 => Sys2Proof.Machine.execAttnBadreqD1_7 s
  | .attnBadreqD1_8 => Sys2Proof.Machine.execAttnBadreqD1_8 s
  | .attnBadreqD1_9 => Sys2Proof.Machine.execAttnBadreqD1_9 s
  | .attnBadreqD1_A => Sys2Proof.Machine.execAttnBadreqD1_A s
  | .attnBadreqD1_B => Sys2Proof.Machine.execAttnBadreqD1_B s
  | .attnBadreqD1_C => Sys2Proof.Machine.execAttnBadreqD1_C s
  | .attnBadreqD1_D => Sys2Proof.Machine.execAttnBadreqD1_D s
  | .attnBadreqD1_E => Sys2Proof.Machine.execAttnBadreqD1_E s
  | .attnBadreqD1_F => Sys2Proof.Machine.execAttnBadreqD1_F s
  | .read _ _ => Sys2Proof.Machine.execRead s
  | .write _ _ => Sys2Proof.Machine.execWrite s
  | .readVerify _ _ => Sys2Proof.Machine.execReadVerify s
  | .writeVerify _ _ => Sys2Proof.Machine.execWriteVerify s
  | .seek _ _ => Sys2Proof.Machine.execSeek s
  | .parkHeads _ _ => Sys2Proof.Machine.execParkHeads s
  | .getDeviceStatus _ _ => Sys2Proof.Machine.execGetDeviceStatus s
  | .getDeviceConfigAdapter _ => Sys2Proof.Machine.execGetDeviceConfigAdapter s
  | .getDeviceConfigDrive0 _ => Sys2Proof.Machine.execGetDeviceConfigDrive0 s
  | .getDeviceConfigDrive1 _ => Sys2Proof.Machine.execGetDeviceConfigDrive1 s
  | .getPositionInfo _ _ => Sys2Proof.Machine.execGetPositionInfo s
  | .sectorBufferWrite _ _ => Sys2Proof.Machine.execSectorBufferWrite s
  | .sectorBufferRead _ _ => Sys2Proof.Machine.execSectorBufferRead s
  | .diagnostic _ _ => Sys2Proof.Machine.execDiagnostic s
  | .formatUnit _ _ => Sys2Proof.Machine.execFormatUnit s
  | .formatPrepare _ _ => Sys2Proof.Machine.execFormatPrepare s
  | .unrecognized00 _ _ => Sys2Proof.Machine.execUnrecognized00 s
  | .unrecognized07 _ _ => Sys2Proof.Machine.execUnrecognized07 s
  | .unrecognized0B _ _ => Sys2Proof.Machine.execUnrecognized0B s
  | .unrecognized0C _ _ => Sys2Proof.Machine.execUnrecognized0C s
  | .unrecognized0D _ _ => Sys2Proof.Machine.execUnrecognized0D s
  | .unrecognized0E _ _ => Sys2Proof.Machine.execUnrecognized0E s
  | .unrecognized0F _ _ => Sys2Proof.Machine.execUnrecognized0F s
  | .unrecognized13 _ _ => Sys2Proof.Machine.execUnrecognized13 s
  | .unrecognized14 _ _ => Sys2Proof.Machine.execUnrecognized14 s
  | .unrecognized15 _ _ => Sys2Proof.Machine.execUnrecognized15 s
  | .unrecognized18 _ _ => Sys2Proof.Machine.execUnrecognized18 s
  | .unrecognized19 _ _ => Sys2Proof.Machine.execUnrecognized19 s
  | .unrecognized1A _ _ => Sys2Proof.Machine.execUnrecognized1A s
  | .unrecognized1B _ _ => Sys2Proof.Machine.execUnrecognized1B s
  | .unrecognized1C _ _ => Sys2Proof.Machine.execUnrecognized1C s
  | .unrecognized1D _ _ => Sys2Proof.Machine.execUnrecognized1D s
  | .unrecognized1E _ _ => Sys2Proof.Machine.execUnrecognized1E s
  | .unrecognized1F _ _ => Sys2Proof.Machine.execUnrecognized1F s
  | .cfgRead idx => Sys2Proof.Machine.execCfgRead idx s
  | .cfgWriteIgnored idx v => Sys2Proof.Machine.execCfgWriteIgnored idx v s
  | .cfgWrite23 idx v => Sys2Proof.Machine.execCfgWrite23 idx v s
  | .cfgWrite47 idx v => Sys2Proof.Machine.execCfgWrite47 idx v s
  | .cfgFeedback => Sys2Proof.Machine.execCfgFeedback s
  | .cfgReset => Sys2Proof.Machine.execCfgReset s

end Sys2Proof.Machine
end

