-- ==== Sys2Proof/Machine/Fetch.lean ====
section
/-! DEFINITION. What a step fetches: the next agent's step from the schedule (00_scope.md R15, 20_memory.md R82), as a code of
the opcode table's formats; and how a code is placed so that the next step fetches it. -/

namespace Sys2Proof.Machine

/-- The command word a firing executes: `S.command` and `S.cmdDev` in their fields (R202), the bits above from word 0 of the
queue. In every state a run reaches with a phase other than Idle this is word 0 itself (R86; log entry 14). -/
def Block.commandWord (b : Block) : Word := (b.cmdWord 0).extractLsb' 8 8 ++ b.cmdDev.code ++ b.command

/-- What the next step is. -/
inductive Fetched where
  /-- No agent steps on the instance; `s` is the state after. -/
  | nothing (s : State)
  /-- The agent's step has the code `c`, on the state `s`. -/
  | code (c : Code) (s : State)

/-- The code of an agent's step (log entries 2, 4). A bus cycle outside the window of ports is none of the block's (R70). -/
def eventCode (e : Event) (s : State) : Option Code :=
  match e with
  | .io write word addr data =>
    match portDescriptor s.params.ioBase write word addr with
    | some desc => some (.port desc data)
    | none => none
  | .attention b => some (.attn b)
  | .config op data => some (.cfgop op data)
  | .fire => some (.cmd0 s.blk.commandWord)

/-- Take the first entry of the schedule; with none, no agent steps (log entry 2). -/
def fetch (s : State) : Fetched :=
  match s.ext.schedule with
  | [] => .nothing s
  | e :: rest =>
    let s1 := { s with ext := { s.ext with schedule := rest } }
    match eventCode e s1 with
    | some c => .code c s1
    | none => .nothing s1

/-- Put an agent's step first in the schedule. -/
def State.scheduled (s : State) (e : Event) : State := { s with ext := { s.ext with schedule := e :: s.ext.schedule } }

/-- The block with a command word in execution at its first phase, the clock armed, and no reset pending. -/
def Block.executing (b : Block) (w : Word) (t : Nat) : Block :=
  { b with
    cmdQueue := b.cmdQueue.setIfInBounds 0 w, command := cmd0Code w, cmdDev := (targetOf (cmd0Dev w)).getD b.cmdDev,
    phase := .p0, resetPending := false, clock := .armed t, fault := none }

/-- The bus cycle of a descriptor (R117). -/
def busCycle (p : Params) (desc : BitVec 5) (data : Word) : Event :=
  .io (desc.getLsbD 4) (desc.getLsbD 3) (p.ioBase + (desc.extractLsb' 0 3).setWidth 16) data

/-- The state whose very next step has the code `c` (log entry 3): a host access needs the interface bound (R80); a command
word needs to be in execution with the clock armed (R200, R202); every step needs an unfaulted instance (R42). -/
def place (s : State) : Code → State
  | .port desc data =>
    State.scheduled { s with blk := { s.blk with ioEnabled := true, fault := none } } (busCycle s.params desc data)
  | .attn b => State.scheduled { s with blk := { s.blk with ioEnabled := true, fault := none } } (.attention b)
  | .cmd0 w => State.scheduled { s with blk := s.blk.executing w s.params.tBase } .fire
  | .cfgop op data => State.scheduled { s with blk := { s.blk with fault := none } } (.config op data)

end Sys2Proof.Machine
end

