-- ==== Sys2Proof/Machine/Step.lean ====
section
/-! DEFINITION. One step of the machine: the next agent's step, decoded and executed. -/

namespace Sys2Proof.Machine

/-- One step. A faulted instance takes none (R42, R402); else the next agent's step is fetched, decoded and executed. -/
def step (s : State) : Host.Outcome State Fault Refusal :=
  match s.blk.fault with
  | some r => .fault (.halted r)
  | none =>
    match fetch s with
    | .nothing s1 => .next s1
    | .code c s1 =>
      match decode c with
      | .ok i => exec i s1
      | .error r => .refused (.undecoded r)

/-- The state whose next step fetches the instruction that the opcode table numbers `w` (log entry 3). -/
def State.withFetchWord (s : State) (nbits w : Nat) : State := place s (tableCode nbits w)

end Sys2Proof.Machine
end

