-- ==== Sys2Proof/Safety.lean ====
section
/-! DEFINITION. The terms of the claims: what a run from power-on keeps, and the end states of a run. -/

namespace Sys2Proof.Machine

/-- No fatal fault was raised (R42). -/
def State.unfaulted (s : State) : Prop := s.blk.fault = none

/-- No firing will come until a host access or configuration write arms the clock (R476). -/
def State.quiescent (s : State) : Prop := s.blk.clock = .disarmed

/-- Quiescent with no command in execution and no reset pending (R476). -/
def State.idle (s : State) : Prop := s.quiescent ∧ s.blk.phase = .idle ∧ s.blk.resetPending = false

/-- Quiescent with a command in execution (R470, R471, R476). -/
def State.stalled (s : State) : Prop := s.quiescent ∧ s.blk.phase ≠ .idle

/-- The codes of the commands that have a phase P1 (R111). -/
def codesWithP1 : List (BitVec 5) := [0x01, 0x02, 0x04, 0x10, 0x11, 0x16, 0x17]

/-- What holds of the block in every state that a run from power-on reaches. -/
structure Block.Inv (p : Params) (b : Block) : Prop where
  /-- Basic-Status bits 7, 6 and 2 read 0 (R23). -/
  reservedStatus : b.status &&& (statusDmaen ||| statusIrqpend ||| statusCirf) = 0
  /-- The longest report is 9 words (R30). -/
  statusLen : b.statusLen ≤ 9
  /-- The read cursor is inside the report, or at its start (R181). -/
  statusPos : b.statusPos = 0 ∨ b.statusPos < b.statusLen
  /-- The command cursor stays below 4 (R177), and passes 2 only in a 4-word block (R108). -/
  cmdPos : b.cmdPos < 4 ∧ (2 ≤ b.cmdPos → cmd0Four (b.cmdWord 0) = true)
  /-- The data cursor is 0..256 (R31). -/
  dataPos : b.dataPos ≤ 256
  /-- At most one command is in progress: none is requested while one executes (R49 a). -/
  oneCommand : b.phase ≠ .idle → b.cmdReqInProgress = false
  /-- The command in execution is that of the queue's word 0 (R86). -/
  commandWord : b.phase ≠ .idle → cmd0Code (b.cmdWord 0) = b.command ∧ cmd0Dev (b.cmdWord 0) = b.cmdDev.code
  /-- With BUSY and CIP clear a command request is accepted (R465). -/
  busyOrCip : b.cmdReqInProgress ∨ b.phase ≠ .idle ∨ b.resetPending →
    hasBit statusBusy b.status ∨ hasBit statusCip b.status
  /-- A firing is due only for a command in execution or a reset (R207). -/
  clockHasWork : b.clock ≠ .disarmed → b.phase ≠ .idle ∨ b.resetPending
  /-- A firing is due with no delay only under `ZERO_DELAY = FireNext` (R38). -/
  noDelay : b.clock = .armed 0 → p.zeroDelay = .fireNext
  /-- A post and an EOI write the latch and the guard alike (R35, R36). -/
  latch : b.irqLatch = b.irqInProgress
  /-- The interrupt flag is set only between a post and its EOI (R22, R412, R163). -/
  irqFlag : hasBit statusIrq b.status → b.irqInProgress
  /-- Completed sectors never exceed the count (R34). -/
  sectorPos : b.sectorPos.toNat ≤ b.sectorCount.toNat
  /-- Only a command with a data-movement phase is in P1 (R111). -/
  phaseP1 : b.phase = .p1 → b.command ∈ codesWithP1
  /-- A sector-buffer transfer fits the buffer (R325, R329). -/
  bufferCount : b.phase = .p1 → b.command = 0x10 ∨ b.command = 0x11 → b.sectorCount.toNat ≤ bufferSectors
  /-- The identification bytes never change (R351). -/
  adapterId : b.cfgByte 0 = p.adapterId.1 ∧ b.cfgByte 1 = p.adapterId.2
  /-- The interface is bound exactly when the enable bit is set (R354). -/
  enable : b.ioEnabled = cfgEnable (b.cfgByte 2)
  /-- The sector buffer is in canonical form. -/
  sectorBuf : Memory.wf b.sectorBuf = true

/-- What holds in every state that a run from power-on reaches. -/
structure State.Inv (s : State) : Prop where
  block : s.blk.Inv s.params
  backing0 : Memory.wf s.drive0.backing = true
  backing1 : Memory.wf s.drive1.backing = true

/-- The part of a state that no step changes: the creation arguments and the drive descriptors (R20, R48). -/
def Drive.descriptor (x : Drive) : Bool × Byte × Byte × BitVec 16 × BitVec 32 × BitVec 32 :=
  (x.present, x.spt, x.heads, x.tracks, x.totalSectors, x.lastSector)


/-! The instructions that a statement names together. -/

/-- The unwired byte reads (R143). -/
def unwiredByteReads : List Instr :=
  [.unwiredRB0, .unwiredRB1, .unwiredRB4, .unwiredRB5, .unwiredRB6, .unwiredRB7]

/-- The unwired word reads (R143). -/
def unwiredWordReads : List Instr :=
  [.unwiredRW1, .unwiredRW2, .unwiredRW3, .unwiredRW4, .unwiredRW5, .unwiredRW6, .unwiredRW7]

/-- The unwired writes (R143). -/
def unwiredWrites (v : Byte) (w : Word) : List Instr :=
  [.unwiredWB0 v, .unwiredWB1 v, .unwiredWB4 v, .unwiredWB5 v, .unwiredWB6 v, .unwiredWB7 v, .unwiredWW1 w,
   .unwiredWW2 w, .unwiredWW3 w, .unwiredWW4 w, .unwiredWW5 w, .unwiredWW6 w, .unwiredWW7 w]

/-- The attention bytes whose device code names no target (R166). -/
def badDevices (req : BitVec 4) : List Instr :=
  [.attnBaddev2 req, .attnBaddev3 req, .attnBaddev4 req, .attnBaddev5 req, .attnBaddev6 req]

/-- The attention bytes whose request the target does not take (R166). -/
def badRequests : List Instr :=
  [.attnBadreqAD_0, .attnBadreqAD_3, .attnBadreqAD_5, .attnBadreqAD_6, .attnBadreqAD_7, .attnBadreqAD_8,
   .attnBadreqAD_9, .attnBadreqAD_A, .attnBadreqAD_B, .attnBadreqAD_C, .attnBadreqAD_D, .attnBadreqAD_E,
   .attnBadreqAD_F, .attnBadreqD0_0, .attnBadreqD0_3, .attnBadreqD0_4, .attnBadreqD0_5, .attnBadreqD0_6,
   .attnBadreqD0_7, .attnBadreqD0_8, .attnBadreqD0_9, .attnBadreqD0_A, .attnBadreqD0_B, .attnBadreqD0_C,
   .attnBadreqD0_D, .attnBadreqD0_E, .attnBadreqD0_F, .attnBadreqD1_0, .attnBadreqD1_3, .attnBadreqD1_4,
   .attnBadreqD1_5, .attnBadreqD1_6, .attnBadreqD1_7, .attnBadreqD1_8, .attnBadreqD1_9, .attnBadreqD1_A,
   .attnBadreqD1_B, .attnBadreqD1_C, .attnBadreqD1_D, .attnBadreqD1_E, .attnBadreqD1_F]

/-- The end-of-interrupt bytes (R163, R164). -/
def endsOfInterrupt : List Instr := [.attnEoiAD, .attnEoiD0, .attnEoiD1]

/-- The command-request bytes with their targets (R161). -/
def commandRequests : List (Instr × Target) :=
  [(.attnCmdreqAD, .adapter), (.attnCmdreqD0, .drive .drive0), (.attnCmdreqD1, .drive .drive1)]

/-- The host writes: every PORT write and every ATTN row (R117, R102). -/
def hostWrites (v : Byte) (w : Word) (req : BitVec 4) : List Instr :=
  [.wrCir w, .wrCtrl v, .wrAttn v, .attnResetAD] ++ unwiredWrites v w ++ badDevices req ++ badRequests ++ endsOfInterrupt ++
    commandRequests.map Prod.fst

/-- The drive-only commands (R210). -/
def driveCommands (four : Bool) (dev : BitVec 3) : List Instr :=
  [.read four dev, .write four dev, .readVerify four dev, .writeVerify four dev, .seek four dev,
   .parkHeads four dev, .getDeviceStatus four dev, .formatUnit four dev, .formatPrepare four dev]

/-- The drive-only commands with a phase P2 (R111). -/
def completingCommands (four : Bool) (dev : BitVec 3) : List Instr :=
  [.read four dev, .write four dev, .readVerify four dev, .writeVerify four dev, .seek four dev,
   .parkHeads four dev, .formatUnit four dev, .formatPrepare four dev]

/-- The drive-only commands with a phase P1 (R111). -/
def dataPhaseCommands (four : Bool) (dev : BitVec 3) : List Instr :=
  [.read four dev, .write four dev, .writeVerify four dev, .formatUnit four dev, .formatPrepare four dev]

/-- The adapter-only commands (R210). -/
def adapterCommands (four : Bool) (dev : BitVec 3) : List Instr :=
  [.getPositionInfo four dev, .sectorBufferWrite four dev, .sectorBufferRead four dev, .diagnostic four dev]

/-- The three rows of Get-Device-Config (R314, R316). -/
def configCommands (four : Bool) : List Instr :=
  [.getDeviceConfigAdapter four, .getDeviceConfigDrive0 four, .getDeviceConfigDrive1 four]

/-- The commands of an unrecognized code (R112). -/
def unrecognizedCommands (four : Bool) (dev : BitVec 3) : List Instr :=
  [.unrecognized00 four dev, .unrecognized07 four dev, .unrecognized0B four dev, .unrecognized0C four dev,
   .unrecognized0D four dev, .unrecognized0E four dev, .unrecognized0F four dev, .unrecognized13 four dev,
   .unrecognized14 four dev, .unrecognized15 four dev, .unrecognized18 four dev, .unrecognized19 four dev,
   .unrecognized1A four dev, .unrecognized1B four dev, .unrecognized1C four dev, .unrecognized1D four dev,
   .unrecognized1E four dev, .unrecognized1F four dev]

/-- Every command: the rows of CMD0 (R111, R112). -/
def commands (four : Bool) (dev : BitVec 3) : List Instr :=
  driveCommands four dev ++ adapterCommands four dev ++ configCommands four ++ unrecognizedCommands four dev

/-! What a firing finds and leaves. -/

/-- A firing of the clock runs phase `p` of the command in execution (R200, R202). -/
structure State.Runs (s : State) (p : Phase) : Prop where
  armed : s.blk.clock ≠ .disarmed
  noReset : s.blk.resetPending = false
  inPhase : s.blk.phase = p

/-- The command in execution addresses the drive `d`, and it is present (R212, R213). -/
structure State.Addresses (s : State) (d : DriveNo) : Prop where
  target : s.blk.cmdDev = .drive d
  present : (s.drive d).present = true

/-- A data-movement firing on the drive `d` with DMA enabled (R231). -/
structure State.MovesDrive (s : State) (d : DriveNo) : Prop where
  runs : s.Runs .p1
  drive : s.Addresses d
  dma : s.blk.ctrl.getLsbD 1 = true

/-- A data-movement firing on the sector buffer with DMA enabled (R231). -/
structure State.MovesBuffer (s : State) : Prop where
  runs : s.Runs .p1
  adapter : s.blk.cmdDev = .adapter
  dma : s.blk.ctrl.getLsbD 1 = true

/-- The outside after a post: the line is raised if `IRQ_ENA` is set (R412). -/
def State.postExt (s : State) : External :=
  if ctrlIrqEna s.blk.ctrl then { s.ext with calls := .irqRaise s.params.irqLineNo :: s.ext.calls } else s.ext

/-- The state with a fatal fault recorded and nothing else changed (R402). -/
def State.faulted (s : State) (r : FatalReason) : State := { s with blk := { s.blk with fault := some r } }

/-- What a firing leaves that resolves the command with the report `ws`, the status value `v` and a post with reason code
`reason` for the target `dev` (R226, R327, R456). -/
def State.resolved (s : State) (ws : List Word) (v : Byte) (dev : Target) (reason : BitVec 4) : State :=
  { s with
    blk := { s.blk with
      statusQueue := writeWords s.blk.statusQueue 0 ws, statusLen := ws.length, statusPos := 0, status := v,
      irqStatus := isrByte dev.code reason, irqInProgress := true, irqLatch := true, phase := .idle,
      clock := .disarmed, acc := 0 }
    ext := s.postExt }

/-- What a firing leaves that succeeds with the report `ws` (R226). -/
def State.succeeded (s : State) (ws : List Word) : State := s.resolved ws 0x09 s.blk.cmdDev 0x1

/-- What a firing leaves that fails with the error code `e` (R226, R240). -/
def State.failed (s : State) (e : ErrorCode) : State :=
  s.resolved [hdr s.blk.command s.blk.cmdDev.code 9, e.first, e.second, 0, 0, 0, 0, 0, 0] 0x09 s.blk.cmdDev 0xC

/-- What a firing leaves at the end of a phase without a post: the status value 0x20, the phase `p` and the clock armed
with `t` (R224, R206). -/
def State.advanced (s : State) (p : Phase) (t : Nat) : State :=
  { s with blk := { s.blk with status := 0x20, phase := p, clock := armedClock s.params t, acc := 0 } }

/-- What a firing leaves at the end of P0 of a DMA command (R261, R270, R325): the transfer-ready post for `dev`. -/
def State.ready (s : State) (dev : Target) : State :=
  { s with
    blk := { s.blk with
      status := 0x23, irqStatus := isrByte dev.code 0xB, irqInProgress := true, irqLatch := true, phase := .p1,
      dataPos := 0, clock := armedClock s.params s.params.tBase, acc := 0 }
    ext := s.postExt }

/-- What a firing of a drive-only command leaves: not supported for the adapter, not present for an absent drive, else
`f d` for the drive `d` addressed (R212 to R214, R236, R239). -/
def State.validated (s : State) (f : DriveNo → State) : State :=
  match s.blk.cmdDev with
  | .adapter => s.failed s.params.errUnsupported
  | .drive d => if (s.drive d).present then f d else s.failed ⟨0x0C11, 0x000B⟩

/-- The RBA and the sector count loaded from the command words 1 to 3 (R109, R110). -/
def State.loaded (s : State) : State :=
  { s with blk := { s.blk with
      rba := (s.blk.cmdWord 3 ++ s.blk.cmdWord 2) &&& 0x0FFFFFFF#32, sectorPos := 0, sectorCount := s.blk.cmdWord 1 } }

/-- What a firing leaves after the range check of drive `d`: the error report, else `t` (R234, R237). -/
def State.checked (s : State) (d : DriveNo) (t : State) : State :=
  if (s.drive d).lastSector.toNat < s.blk.rba.toNat + s.blk.sectorCount.toNat then s.failed s.params.errRbaRange else t

/-! Runs of reads, words and sectors. -/

/-- `n` Status-Interface reads in a row: the words they return, and the state after. -/
def sirReads : Nat → State → Option (List Word × State)
  | 0, s => some ([], s)
  | n + 1, s =>
    match exec .rdSir s with
    | .next t =>
      match t.ext.result with
      | .word w => (sirReads n t).map fun r => (w :: r.1, r.2)
      | _ => none
    | _ => none

/-- The sector that the first 256 words of a list make, the words of `w` where the list is shorter. -/
def overlay (ws : List Word) (w : Sector) : Sector := Vector.ofFn fun i => ws.getD i.val w[i]

/-- The sector that the first 256 words of a list make. -/
def sectorOf (ws : List Word) : Sector := overlay ws (Vector.replicate 256 0)

/-- The words of `n` sectors from sector `k` on. -/
def sectorWords (m : Memory) : Nat → Nat → List Word
  | _, 0 => []
  | k, n + 1 => (Memory.readSector m k).toList ++ sectorWords m (k + 1) n

/-- `n` sectors' words stored from sector `k` on. -/
def storeWords (m : Memory) : Nat → List Word → Nat → Memory
  | _, _, 0 => m
  | k, ws, n + 1 => storeWords (Memory.writeSector m k (sectorOf ws)) (k + 1) (ws.drop 256) n

/-- The calls, oldest first, of `n` sectors fetched from `lba` on and drained (R263). -/
def readCalls (d : DriveNo) (channel : BitVec 3) (m : Memory) : BitVec 32 → Nat → List Call
  | _, 0 => []
  | lba, n + 1 =>
    .storageRead d lba .ok :: (Memory.readSector m lba.toNat).toList.map (fun w => .dmaPush channel w .ok) ++
      readCalls d channel m (lba + 1#32) n

/-- The calls, oldest first, of `n` sectors pulled and stored from `lba` on, the first `p` words of `ws` pulled before
(R272). -/
def writeCalls (d : DriveNo) (channel : BitVec 3) : BitVec 32 → List Word → Nat → Nat → List Call
  | _, _, _, 0 => []
  | lba, ws, p, n + 1 =>
    ((ws.take 256).drop p).map (fun w => .dmaPull channel (.word w)) ++
      .storageWrite d lba .ok :: writeCalls d channel (lba + 1#32) (ws.drop 256) 0 n

/-- The time of `n` sectors fetched from `lba` on (R266). -/
def readDelay (p : Params) (d : DriveNo) : BitVec 32 → Nat → Nat
  | _, 0 => 0
  | lba, n + 1 => Config.readTime d lba 1 + p.tXfer + readDelay p d (lba + 1#32) n

/-- The time of `n` sectors stored from `lba` on (R271). -/
def writeDelay (p : Params) (d : DriveNo) : BitVec 32 → Nat → Nat
  | _, 0 => 0
  | lba, n + 1 => Config.writeTime d lba 1 + p.tXfer + writeDelay p d (lba + 1#32) n

/-- The words that the DMA engine took, oldest first (R230, R264). -/
def pushedWords (calls : List Call) : List Word :=
  calls.reverse.filterMap fun c => match c with
    | .dmaPush _ w .ok => some w
    | _ => none

end Sys2Proof.Machine
end

