-- ==== Sys2Proof/Certificates/Slice0/Obligations.lean ====
section
/-! DEFINITION. The statements for the provers, in the order of OBLIGATIONS.json. Each docstring names the rules of spec/
that the statement formalises, and the spec's decisions or the log entries that it rests on. -/

section Statements

open Sys2Proof Sys2Proof.Machine

/-! Register interface: reads. -/

/-- R141: a Basic-Status read returns `S.status` and changes nothing else; bits 7, 6 and 2 of it read 0 in every state
that keeps the invariant. -/
def Obligations.StatusReadReturnsStatus : Prop :=
  ∀ s : State, s.blk.ioEnabled = true →
    exec .rdStatus s = .next { s with ext := { s.ext with result := .byte s.blk.status } } ∧
    (s.Inv → s.blk.status &&& 0xC4 = 0)

/-- R142: an Interrupt-Status read returns `S.irqStatus` and clears `IRQ`, and nothing else; a second read changes nothing;
the register is 0 when nothing was ever posted. -/
def Obligations.InterruptStatusReadClearsIrq : Prop :=
  (∀ s : State, s.blk.ioEnabled = true →
    let t : State :=
      { s with blk := { s.blk with status := s.blk.status &&& 0xFE }, ext := { s.ext with result := .byte s.blk.irqStatus } }
    exec .rdIsr s = .next t ∧ exec .rdIsr t = .next t) ∧
  State.reset.blk.irqStatus = 0x00

/-- R181: a Status-Interface read past the length returns 0 and changes nothing; within it, it returns the word under the
cursor and advances the cursor; at the last word it clears `SOF` (bit 3) and empties the queue. -/
def Obligations.StatusInterfaceReadPops : Prop :=
  ∀ s : State, s.blk.ioEnabled = true →
    exec .rdSir s =
      if s.blk.statusLen ≤ s.blk.statusPos then .next { s with ext := { s.ext with result := .word 0x0000 } }
      else
        let out := { s.ext with result := .word (s.blk.statusQueue.getD s.blk.statusPos 0) }
        if s.blk.statusPos + 1 < s.blk.statusLen then
          .next { s with blk := { s.blk with statusPos := s.blk.statusPos + 1 }, ext := out }
        else
          .next { s with blk := { s.blk with status := s.blk.status &&& 0xF7, statusPos := 0, statusLen := 0 }, ext := out }

/-- R182, which the spec derives from R181: `statusLen` reads return the report's words in order; before the last of them
only the cursor has moved; the last clears `SOF` and empties the queue; a further read returns 0 and changes nothing. -/
def Obligations.StatusQueueDrainsInOrder : Prop :=
  ∀ s : State, s.blk.ioEnabled = true → s.blk.statusPos = 0 → 0 < s.blk.statusLen → s.blk.statusLen ≤ 256 →
    (∀ k, k < s.blk.statusLen → ∃ u, sirReads k s = some (s.blk.statusQueue.toList.take k, u) ∧
      u.blk = { s.blk with statusPos := k }) ∧
    ∃ t, sirReads s.blk.statusLen s = some (s.blk.statusQueue.toList.take s.blk.statusLen, t) ∧
      t = { s with
        blk := { s.blk with status := s.blk.status &&& 0xF7, statusPos := 0, statusLen := 0 }
        ext := { s.ext with result := .word (s.blk.statusQueue.getD (s.blk.statusLen - 1) 0) } } ∧
      exec .rdSir t = .next { t with ext := { t.ext with result := .word 0x0000 } }

/-! Register interface: writes. -/

/-- R145 (decision D12) and R146: a Basic-Control write latches the byte; a falling edge of `RESET` starts the reset
sequence, a rising edge disarms the clock, and both set `BUSY`; a change of `IRQ_ENA` with the latch set raises or lowers
the line; the line is the latch gated by the new `IRQ_ENA`. -/
def Obligations.ControlWriteEffect : Prop :=
  ∀ (v : Byte) (s : State), s.blk.ioEnabled = true →
    let falls := s.blk.ctrl.getLsbD 7 && !v.getLsbD 7
    let rises := !s.blk.ctrl.getLsbD 7 && v.getLsbD 7
    let b : Block :=
      { s.blk with
        ctrl := v
        resetPending := s.blk.resetPending || falls
        clock := if falls then armedClock s.params s.params.tReset else if rises then .disarmed else s.blk.clock
        status := if falls || rises then s.blk.status ||| 0x10 else s.blk.status }
    let calls :=
      if s.blk.irqLatch = true ∧ s.blk.ctrl.getLsbD 0 = false ∧ v.getLsbD 0 = true then
        .irqRaise s.params.irqLineNo :: s.ext.calls
      else if s.blk.irqLatch = true ∧ s.blk.ctrl.getLsbD 0 = true ∧ v.getLsbD 0 = false then
        .irqLower s.params.irqLineNo :: s.ext.calls
      else s.ext.calls
    exec (.wrCtrl v) s = .next { s with blk := b, ext := { s.ext with calls := calls } } ∧
    b.irqLine = (s.blk.irqLatch && v.getLsbD 0)

/-- R175 to R178 (decisions D14, D19, D49): a Command-Interface write faults with the guard clear, and at a full queue;
else it appends the word; when the block has the 2 or 4 words that bit 14 of word 0 says, the command starts, or the
write faults if the target field of word 0 is not the target requested. A faulting write changes nothing but `fault`. -/
def Obligations.CommandWordWrite : Prop :=
  ∀ (v : Word) (s : State), s.blk.ioEnabled = true →
    let q := s.blk.cmdQueue.setIfInBounds s.blk.cmdPos v
    let word0 := q.getD 0 0
    exec (.wrCir v) s =
      if s.blk.cmdReqInProgress = false then .next (s.faulted .commandWordWithoutRequest)
      else if 4 ≤ s.blk.cmdPos then .next (s.faulted .commandQueueOverflow)
      else if s.blk.cmdPos + 1 ≠ (if word0.getLsbD 14 then 4 else 2) then
        .next { s with blk := { s.blk with cmdQueue := q, cmdPos := s.blk.cmdPos + 1 } }
      else if word0.extractLsb' 5 3 ≠ s.blk.cmdDev.code then .next (s.faulted .targetMismatch)
      else
        .next { s with blk := { s.blk with
          cmdQueue := q, cmdPos := 0, cmdReqInProgress := false, phase := .p0, command := word0.extractLsb' 0 5,
          dataPos := 0, status := s.blk.status ||| 0x10, clock := armedClock s.params s.params.tBase } }

/-- R143 (decision D15) and R74: each of the 26 unwired descriptors faults, whatever value it writes, and changes nothing
but `fault`. -/
def Obligations.UnwiredAccessFaults : Prop :=
  ∀ (v : Byte) (w : Word) (i : Instr), i ∈ unwiredByteReads ++ unwiredWordReads ++ unwiredWrites v w →
    ∀ s : State, s.blk.ioEnabled = true → exec i s = .next (s.faulted .unwiredPort)

/-- R80 (decision D42): while the interface is unbound a host write changes nothing, and a host read changes nothing of the
instance and returns a value of the host bus. That value is a free value (log entry 12): the statement holds for every
value of `Config.hostBus`. -/
def Obligations.UnboundAccessReachesNothing : Prop :=
  ∀ s : State, s.blk.ioEnabled = false →
    (∀ (v : Byte) (w : Word) (req : BitVec 4) (i : Instr), i ∈ hostWrites v w req → exec i s = .next s) ∧
    (∀ i : Instr, i ∈ [.rdStatus, .rdIsr] ++ unwiredByteReads →
      exec i s = .next { s with ext := { s.ext with
        busDraws := s.ext.busDraws + 1, result := .byte ((Config.hostBus s.ext.busDraws).extractLsb' 0 8) } }) ∧
    (∀ i : Instr, i ∈ [.rdSir] ++ unwiredWordReads →
      exec i s = .next { s with ext := { s.ext with
        busDraws := s.ext.busDraws + 1, result := .word (Config.hostBus s.ext.busDraws) } })

/-! Attention. -/

/-- R160 with R103, R119 (decision D4), R147, R161 and R163 (decision D36): an Attention write acts by its device code and
then by its request code. The last clause, that it does what the ATTN row of the byte does, is the model's choice of log
entry 4: the two rows are two spellings of one access. -/
def Obligations.AttentionWriteByDeviceThenRequest : Prop :=
  ∀ (v : Byte) (s : State), s.blk.ioEnabled = true →
    let dev := v.extractLsb' 5 3
    let req := v.extractLsb' 0 4
    (dev ≠ 7#3 ∧ dev ≠ 0#3 ∧ dev ≠ 1#3 → exec (.wrAttn v) s = .next (s.faulted .badAttentionDevice)) ∧
    (dev = 7#3 ∨ dev = 0#3 ∨ dev = 1#3 →
      (req = 1#4 → exec (.wrAttn v) s =
        exec (if dev = 7#3 then .attnCmdreqAD else if dev = 0#3 then .attnCmdreqD0 else .attnCmdreqD1) s) ∧
      (req = 2#4 → exec (.wrAttn v) s =
        .next { s with
          blk := { s.blk with irqInProgress := false, irqLatch := false, status := s.blk.status &&& 0xFE }
          ext := { s.ext with calls := .irqLower s.params.irqLineNo :: s.ext.calls } }) ∧
      (req = 4#4 → exec (.wrAttn v) s =
        if dev = 7#3 then
          .next { s with blk := { s.blk with
            resetPending := true, clock := armedClock s.params s.params.tReset, status := s.blk.status ||| 0x10 } }
        else .next (s.faulted .badAttentionRequest)) ∧
      (req ≠ 1#4 ∧ req ≠ 2#4 ∧ req ≠ 4#4 → exec (.wrAttn v) s = .next (s.faulted .badAttentionRequest))) ∧
    ∃ i, decode (.attn v) = .ok i ∧ exec i s = exec (.wrAttn v) s

/-- R161 and R162 (decisions D12, D13): a command request faults while the guard is set, the engine is not Idle or a reset
is pending; else it sets the guard, records the target, sets `BUSY` and resets both cursors. -/
def Obligations.CommandRequestEffect : Prop :=
  ∀ r ∈ commandRequests, ∀ s : State, s.blk.ioEnabled = true →
    exec r.1 s =
      if s.blk.cmdReqInProgress = true ∨ s.blk.phase ≠ .idle ∨ s.blk.resetPending = true then
        .next (s.faulted .commandWhileBusy)
      else
        .next { s with blk := { s.blk with
          cmdReqInProgress := true, cmdDev := r.2, status := s.blk.status ||| 0x10, cmdPos := 0, statusPos := 0 } }

/-- R163 and R164 (decision D36): an end of interrupt, with any of the three device codes, clears `irqInProgress`, the latch
and `IRQ`, and lowers the line. -/
def Obligations.EndOfInterruptClears : Prop :=
  ∀ i ∈ endsOfInterrupt, ∀ s : State, s.blk.ioEnabled = true →
    exec i s = .next { s with
      blk := { s.blk with irqInProgress := false, irqLatch := false, status := s.blk.status &&& 0xFE }
      ext := { s.ext with calls := .irqLower s.params.irqLineNo :: s.ext.calls } }

/-- R147 and R165: a reset request to the adapter is accepted in every phase and starts the reset sequence, and changes
nothing else; to a drive it faults. -/
def Obligations.AttentionResetStartsReset : Prop :=
  ∀ s : State, s.blk.ioEnabled = true →
    exec .attnResetAD s = .next { s with blk := { s.blk with
      resetPending := true, clock := armedClock s.params s.params.tReset, status := s.blk.status ||| 0x10 } } ∧
    (∀ i ∈ [Instr.attnBadreqD0_4, Instr.attnBadreqD1_4], exec i s = .next (s.faulted .badAttentionRequest))

/-- R166 (decision D4): the five device codes that name no target fault whatever the request, and the 41 pairs of a target
and a request it does not take fault; only `fault` changes. -/
def Obligations.BadAttentionFaults : Prop :=
  ∀ s : State, s.blk.ioEnabled = true →
    (∀ (req : BitVec 4) (i : Instr), i ∈ badDevices req → exec i s = .next (s.faulted .badAttentionDevice)) ∧
    (∀ i ∈ badRequests, exec i s = .next (s.faulted .badAttentionRequest))

/-! The command engine. -/

/-- R202, R455, R456, R457 (decisions D32, D33): a firing with a reset pending completes the reset whatever command and phase
is in execution, with the one-word report 0x01EA. -/
def Obligations.PendingResetOverridesCommand : Prop :=
  ∀ (four : Bool) (dev : BitVec 3), ∀ i ∈ commands four dev, ∀ s : State,
    s.blk.clock ≠ .disarmed → s.blk.resetPending = true →
    exec i s = .next { s with
      blk := { s.blk with
        resetPending := false, statusQueue := s.blk.statusQueue.setIfInBounds 0 0x01EA, statusLen := 1, statusPos := 0,
        status := 0x09, irqStatus := 0xEA, irqInProgress := true, irqLatch := true, cmdReqInProgress := false, cmdPos := 0,
        phase := .idle, clock := .disarmed, acc := 0 }
      ext := s.postExt }

/-- R200, R201 and R207 (decision D43): a firing with nothing in execution changes only the clock and the accumulator; with
the clock disarmed there is no firing (log entry 17: the model's choice for a row that is met then). -/
def Obligations.IdleFiringOnlyDisarms : Prop :=
  ∀ (four : Bool) (dev : BitVec 3), ∀ i ∈ commands four dev, ∀ s : State,
    (s.blk.clock = .disarmed → exec i s = .next s) ∧
    (s.blk.clock ≠ .disarmed → s.blk.resetPending = false → s.blk.phase = .idle →
      exec i s = .next { s with blk := { s.blk with clock := .disarmed, acc := 0 } })

/-- R210 to R212 and R214 (decision D46): a drive-only command to the adapter and an adapter-only command to a drive end with
the not-supported report, in every phase the command has. -/
def Obligations.WrongTargetClassNotSupported : Prop :=
  ∀ (four : Bool) (dev : BitVec 3) (s : State) (p : Phase), s.Runs p → p ≠ .idle →
    (s.blk.cmdDev = .adapter → ∀ i ∈ driveCommands four dev, (p = .p1 → i ∈ dataPhaseCommands four dev) →
      exec i s = .next (s.failed s.params.errUnsupported)) ∧
    (∀ d, s.blk.cmdDev = .drive d → ∀ i ∈ adapterCommands four dev, exec i s = .next (s.failed s.params.errUnsupported))

/-- R236 with R213 and R214: a drive-only command (classes: decision D46) to an absent drive ends with the report 0x0C11,
0x000B and a failure post, in every phase the command has, and no DMA or storage call is made; so does Get-Device-Config to
an absent drive (R316, decision D52). -/
def Obligations.AbsentDriveReported : Prop :=
  ∀ (four : Bool) (dev : BitVec 3) (s : State) (p : Phase) (d : DriveNo), s.Runs p → p ≠ .idle →
    s.blk.cmdDev = .drive d → (s.drive d).present = false →
    ∀ i ∈ driveCommands four dev ++ [.getDeviceConfigDrive0 four, .getDeviceConfigDrive1 four],
      (p = .p1 → i ∈ dataPhaseCommands four dev) → exec i s = .next (s.failed ⟨0x0C11, 0x000B⟩)

/-- R340: a command of an unrecognized code ends with the not-supported report for any target, with no target, presence or
pending check. -/
def Obligations.UnrecognizedCodeNotSupported : Prop :=
  ∀ (four : Bool) (dev : BitVec 3) (s : State) (p : Phase), s.Runs p → p ≠ .idle →
    ∀ i ∈ unrecognizedCommands four dev, exec i s = .next (s.failed s.params.errUnsupported)

/-- R220: `Report` of at most 256 words writes them from index 0 on, sets the length, resets the cursor and keeps every
other word. -/
def Obligations.ReportWritesQueue : Prop :=
  ∀ (s : State) (ws : List Word), ws.length ≤ 256 →
    s.report ws = { s with blk := { s.blk with
      statusQueue := overlay ws s.blk.statusQueue, statusLen := ws.length, statusPos := 0 } }

/-! Setup phases. -/

/-- R261 and R270: P0 of Read, Write and Write-Verify validates the target, loads the operands, checks the range and posts
transfer-ready. -/
def Obligations.TransferSetup : Prop :=
  ∀ (four : Bool) (dev : BitVec 3), ∀ i ∈ [Instr.read four dev, .write four dev, .writeVerify four dev], ∀ s : State,
    s.Runs .p0 → exec i s = .next (s.validated fun d => s.loaded.checked d (s.loaded.ready s.blk.cmdDev))

/-- R278 (decision D21): P0 of Read-Verify checks the range of the loaded operands and arms the read time of the run. -/
def Obligations.ReadVerifySetup : Prop :=
  ∀ (four : Bool) (dev : BitVec 3) (s : State), s.Runs .p0 →
    exec (.readVerify four dev) s = .next (s.validated fun d => s.loaded.checked d (s.loaded.advanced .p2
      (s.params.tBase + Config.readTime d s.loaded.blk.rba s.loaded.blk.sectorCount.toNat)))

/-- R280 (decision D21): P0 of Seek checks the range of the stored RBA and count. -/
def Obligations.SeekSetup : Prop :=
  ∀ (four : Bool) (dev : BitVec 3) (s : State), s.Runs .p0 →
    exec (.seek four dev) s = .next (s.validated fun d =>
      s.checked d (s.advanced .p2 (s.params.tBase + Config.seekTime d s.blk.rba)))

/-- R284: P0 of Park-Heads forces the RBA to 0, with no range check. -/
def Obligations.ParkHeadsSetup : Prop :=
  ∀ (four : Bool) (dev : BitVec 3) (s : State), s.Runs .p0 →
    exec (.parkHeads four dev) s = .next (s.validated fun d =>
      State.advanced { s with blk := { s.blk with rba := 0 } } .p2 (s.params.tBase + Config.seekTime d 0))

/-- R288 (decision D22): P0 of Format-Unit captures the last sector's address and the count, and posts nothing. -/
def Obligations.FormatUnitSetup : Prop :=
  ∀ (four : Bool) (dev : BitVec 3) (s : State), s.Runs .p0 →
    exec (.formatUnit four dev) s = .next (s.validated fun d =>
      State.advanced
        { s with blk := { s.blk with rba := (s.drive d).lastSector, sectorPos := 0, sectorCount := s.blk.cmdWord 1 } }
        .p1 s.params.tBase)

/-- R292: the three phases of Format-Prepare; the storage is not changed. -/
def Obligations.FormatPreparePhases : Prop :=
  ∀ (four : Bool) (dev : BitVec 3) (s : State),
    (s.Runs .p0 → exec (.formatPrepare four dev) s = .next (s.validated fun d =>
      State.advanced { s with blk := { s.blk with rba := (s.drive d).lastSector, sectorPos := 0 } } .p1 s.params.tBase)) ∧
    (s.Runs .p1 → exec (.formatPrepare four dev) s = .next (s.validated fun _ => s.advanced .p2 s.params.tBase)) ∧
    (s.Runs .p2 → exec (.formatPrepare four dev) s = .next (s.validated fun _ =>
      s.succeeded [hdr s.blk.command s.blk.cmdDev.code 7, 0x0000, s.params.deviceStatusWord, 0x0000,
        (s.blk.rba - 1).extractLsb' 0 16, (s.blk.rba - 1).extractLsb' 16 16, 0x0000]))

/-- R234: the range check fails exactly when RBA plus count exceeds `LastSector(d)`, as naturals (the sum is below 2^29); a
checked command that passes never moves the sector at `LastSector(d)`. -/
def Obligations.RangeCheckBoundary : Prop :=
  ∀ (four : Bool) (dev : BitVec 3) (s : State) (d : DriveNo), s.Runs .p0 → s.Addresses d →
    ∀ i ∈ [Instr.read four dev, .write four dev, .writeVerify four dev, .readVerify four dev],
      let rba := s.loaded.blk.rba.toNat
      let count := s.loaded.blk.sectorCount.toNat
      let last := (s.drive d).lastSector.toNat
      rba + count < 2 ^ 29 ∧
      (last < rba + count → exec i s = .next (s.loaded.failed s.params.errRbaRange)) ∧
      (rba + count ≤ last → ∃ t, exec i s = .next t ∧ t.blk.phase ≠ .idle ∧ t.blk.rba = s.loaded.blk.rba ∧
        t.blk.sectorCount = s.loaded.blk.sectorCount ∧ ∀ k, k < count → rba + k ≠ last)

/-! Data movement. -/

/-- R231 (decision D18): a data-movement firing with `DMA_ENA` clear only arms the clock again. -/
def Obligations.DataPhaseWaitsForDmaEnable : Prop :=
  ∀ (four : Bool) (dev : BitVec 3) (s : State), s.Runs .p1 → s.blk.ctrl.getLsbD 1 = false →
    let t : State := { s with blk := { s.blk with clock := armedClock s.params s.params.tBase, acc := 0 } }
    (∀ d, s.Addresses d → ∀ i ∈ [Instr.read four dev, .write four dev, .writeVerify four dev], exec i s = .next t) ∧
    (s.blk.cmdDev = .adapter → ∀ i ∈ [Instr.sectorBufferWrite four dev, .sectorBufferRead four dev], exec i s = .next t)

/-- R263 to R266 (decisions D17, D19): a data-movement firing of Read that starts a sector, and that storage and DMA never
refuse, fetches the sectors left in RBA order, pushes their words in index order, and ends the phase. -/
def Obligations.ReadDataPhaseMovesSectors : Prop :=
  ∀ (four : Bool) (dev : BitVec 3) (s : State) (d : DriveNo) (ss : List StorageAnswer) (ps : List PushAnswer),
    let n := s.blk.sectorCount.toNat - s.blk.sectorPos.toNat
    let m := (s.drive d).backing
    s.MovesDrive d → s.blk.dataPos = 0 → s.blk.sectorPos.toNat ≤ s.blk.sectorCount.toNat →
    s.blk.rba.toNat + n ≤ (s.drive d).totalSectors.toNat →
    s.ext.storageAnswers = List.replicate n .ok ++ ss → s.ext.pushAnswers = List.replicate (256 * n) .ok ++ ps →
    exec (.read four dev) s = .next { s with
      blk := { s.blk with
        status := 0x20, phase := .p2, acc := readDelay s.params d s.blk.rba n,
        clock := armedClock s.params (readDelay s.params d s.blk.rba n),
        dataBuf := if n = 0 then s.blk.dataBuf else Memory.readSector m (s.blk.rba.toNat + n - 1),
        sectorPos := s.blk.sectorCount, rba := s.blk.rba + BitVec.ofNat 32 n }
      ext := { s.ext with
        storageAnswers := ss, pushAnswers := ps,
        calls := (readCalls d s.blk.dmaChannel m s.blk.rba n).reverse ++ s.ext.calls } }

/-- R232 and R264: a data-movement firing of Read whose DMA engine takes `q` sectors and `r` words and then refuses a word
leaves the cursors at that word, which it did not move, and arms the clock with `T_BASE` and the time accumulated. A firing
that resumes inside a sector (R233) and is refused again after `r` more words of that sector, which it does not fetch again,
leaves the cursor at that word; it has accumulated no time. -/
def Obligations.ReadSuspendsAtRefusedWord : Prop :=
  (∀ (four : Bool) (dev : BitVec 3) (s : State) (d : DriveNo) (q r : Nat) (ss : List StorageAnswer) (ps : List PushAnswer),
    let n := s.blk.sectorCount.toNat - s.blk.sectorPos.toNat
    let m := (s.drive d).backing
    let lba := s.blk.rba + BitVec.ofNat 32 q
    let w := Memory.readSector m lba.toNat
    s.MovesDrive d → s.blk.dataPos = 0 → q < n → r < 256 → s.blk.rba.toNat + n ≤ (s.drive d).totalSectors.toNat →
    s.ext.storageAnswers = List.replicate (q + 1) .ok ++ ss →
    s.ext.pushAnswers = List.replicate (256 * q + r) .ok ++ .noData :: ps →
    exec (.read four dev) s = .next { s with
      blk := { s.blk with
        clock := armedClock s.params (s.params.tBase + readDelay s.params d s.blk.rba (q + 1)),
        acc := readDelay s.params d s.blk.rba (q + 1),
        dataBuf := w, dataPos := r, sectorPos := s.blk.sectorPos + BitVec.ofNat 16 q, rba := lba }
      ext := { s.ext with
        storageAnswers := ss, pushAnswers := ps,
        calls := .dmaPush s.blk.dmaChannel (w.toList.getD r 0) .noData ::
          ((w.toList.take r).map (fun x => Call.dmaPush s.blk.dmaChannel x .ok)).reverse ++
          .storageRead d lba .ok :: (readCalls d s.blk.dmaChannel m s.blk.rba q).reverse ++ s.ext.calls } }) ∧
  ∀ (four : Bool) (dev : BitVec 3) (s : State) (d : DriveNo) (r : Nat) (ps : List PushAnswer),
    let p := s.blk.dataPos
    let w := s.blk.dataBuf.toList
    s.MovesDrive d → 0 < p → p + r < 256 → s.blk.sectorPos.toNat < s.blk.sectorCount.toNat →
    s.ext.pushAnswers = List.replicate r .ok ++ .noData :: ps →
    exec (.read four dev) s = .next { s with
      blk := { s.blk with clock := armedClock s.params s.params.tBase, acc := 0, dataPos := p + r }
      ext := { s.ext with
        pushAnswers := ps,
        calls := .dmaPush s.blk.dmaChannel (w.getD (p + r) 0) .noData ::
          (((w.drop p).take r).map (fun x => Call.dmaPush s.blk.dmaChannel x .ok)).reverse ++ s.ext.calls } }

/-- R233: a data-movement firing of Read that resumes inside a sector pushes the words from the cursor on, fetches nothing
for it, and goes on as a firing at the start of the next sector does; where that one faults, it is the state from before the
resumed firing that comes back (R402, decision D56). -/
def Obligations.ReadResumesAtCursor : Prop :=
  ∀ (four : Bool) (dev : BitVec 3) (s : State) (d : DriveNo) (ps : List PushAnswer),
    s.MovesDrive d → 0 < s.blk.dataPos → s.blk.dataPos < 256 → s.blk.sectorPos.toNat < s.blk.sectorCount.toNat →
    s.ext.pushAnswers = List.replicate (256 - s.blk.dataPos) .ok ++ ps →
    let t : State := { s with
      blk := { s.blk with dataPos := 0, sectorPos := s.blk.sectorPos + 1, rba := s.blk.rba + 1 }
      ext := { s.ext with
        pushAnswers := ps,
        calls := ((s.blk.dataBuf.toList.drop s.blk.dataPos).map fun x => Call.dmaPush s.blk.dmaChannel x .ok).reverse ++
          s.ext.calls } }
    (s.blk.rba.toNat + (s.blk.sectorCount.toNat - s.blk.sectorPos.toNat) ≤ (s.drive d).totalSectors.toNat →
      exec (.read four dev) s = exec (.read four dev) t ∧ ∃ u, exec (.read four dev) s = .next u ∧ u.blk.fault = s.blk.fault) ∧
    (s.blk.fault = none → ∃ u, exec (.read four dev) t = .next u ∧ exec (.read four dev) s =
      .next (if u.blk.fault = none then u else { u with blk := { s.blk with fault := u.blk.fault } }))

/-- R272, R274 and R271 (decision D19): a data-movement firing of Write or Write-Verify that is never refused pulls the words
that the sectors left still need, stores each full sector at its RBA in order, and ends the phase; no other byte of storage
changes. `ws` is the words of the sectors left, the first of them pulled by earlier firings. -/
def Obligations.WriteDataPhaseStoresSectors : Prop :=
  ∀ (four : Bool) (dev : BitVec 3) (s : State) (d : DriveNo) (ws : List Word) (ss : List StorageAnswer)
    (ps : List PullAnswer),
    let n := s.blk.sectorCount.toNat - s.blk.sectorPos.toNat
    let p := s.blk.dataPos
    let m := (s.drive d).backing
    let m' := storeWords m s.blk.rba.toNat ws n
    s.MovesDrive d → p < 256 → (n = 0 → p = 0) → s.blk.sectorPos.toNat ≤ s.blk.sectorCount.toNat →
    s.blk.rba.toNat + n ≤ (s.drive d).totalSectors.toNat →
    ws.length = 256 * n → ws.take p = s.blk.dataBuf.toList.take p →
    s.ext.storageAnswers = List.replicate n .ok ++ ss → s.ext.pullAnswers = (ws.drop p).map PullAnswer.word ++ ps →
    (∀ i ∈ [Instr.write four dev, .writeVerify four dev], exec i s = .next (State.setBacking { s with
      blk := { s.blk with
        status := 0x20, phase := .p2, acc := writeDelay s.params d s.blk.rba n,
        clock := armedClock s.params (writeDelay s.params d s.blk.rba n), dataPos := 0,
        dataBuf := if n = 0 then s.blk.dataBuf else sectorOf (ws.drop (256 * (n - 1))),
        sectorPos := s.blk.sectorCount, rba := s.blk.rba + BitVec.ofNat 32 n }
      ext := { s.ext with
        storageAnswers := ss, pullAnswers := ps,
        calls := (writeCalls d s.blk.dmaChannel s.blk.rba ws p n).reverse ++ s.ext.calls } } d m')) ∧
    ∀ a, a < 512 * s.blk.rba.toNat ∨ 512 * (s.blk.rba.toNat + n) ≤ a → Memory.read m' a = Memory.read m a

/-- R232 and R272: a data-movement firing of Write or Write-Verify that the DMA engine leaves without data stores the full
sectors, keeps the words pulled for the next one in the data buffer, and leaves the cursors at the word it did not get.
`ws` is the words of the `q` sectors stored and the `r` words after them, the first of them pulled by earlier firings. -/
def Obligations.WriteSuspendsAtMissingWord : Prop :=
  ∀ (four : Bool) (dev : BitVec 3) (s : State) (d : DriveNo) (q r : Nat) (ws : List Word) (ss : List StorageAnswer)
    (ps : List PullAnswer),
    let n := s.blk.sectorCount.toNat - s.blk.sectorPos.toNat
    let p := s.blk.dataPos
    let ch := s.blk.dmaChannel
    s.MovesDrive d → p ≤ ws.length → p < 256 → q < n → r < 256 → s.blk.rba.toNat + n ≤ (s.drive d).totalSectors.toNat →
    ws.length = 256 * q + r → ws.take p = s.blk.dataBuf.toList.take p →
    s.ext.storageAnswers = List.replicate q .ok ++ ss →
    s.ext.pullAnswers = (ws.drop p).map PullAnswer.word ++ .noData :: ps →
    ∀ i ∈ [Instr.write four dev, .writeVerify four dev], exec i s = .next (State.setBacking { s with
      blk := { s.blk with
        clock := armedClock s.params (s.params.tBase + writeDelay s.params d s.blk.rba q),
        acc := writeDelay s.params d s.blk.rba q, dataPos := r,
        dataBuf := overlay (ws.drop (256 * q)) (if q = 0 then s.blk.dataBuf else sectorOf (ws.drop (256 * (q - 1)))),
        sectorPos := s.blk.sectorPos + BitVec.ofNat 16 q, rba := s.blk.rba + BitVec.ofNat 32 q }
      ext := { s.ext with
        storageAnswers := ss, pullAnswers := ps,
        calls := .dmaPull ch .noData ::
          (((ws.drop (256 * q)).drop (if q = 0 then p else 0)).map (fun x => Call.dmaPull ch (.word x))).reverse ++
          (writeCalls d ch s.blk.rba ws p q).reverse ++ s.ext.calls } } d
      (storeWords (s.drive d).backing s.blk.rba.toNat ws q))

/-- R217 and R402 (decisions D48, D56): a data-movement firing that reaches an RBA past the drive's total sectors, after `q`
sectors moved in the same firing, faults before its storage call; the block keeps its state from before the firing but for
`fault`, the `q` sectors stay pushed or stored, and the words pulled for the next one stay pulled. `ws` is the words of the
`q` sectors and of the next one, the first of them pulled by earlier firings. -/
def Obligations.PastEndOfDriveFaults : Prop :=
  ∀ (four : Bool) (dev : BitVec 3) (s : State) (d : DriveNo) (q : Nat) (ss : List StorageAnswer),
    let p := s.blk.dataPos
    let ch := s.blk.dmaChannel
    let rba := s.blk.rba.toNat
    let total := (s.drive d).totalSectors.toNat
    s.MovesDrive d → q < s.blk.sectorCount.toNat - s.blk.sectorPos.toNat → total ≤ rba + q → (0 < q → rba + q ≤ total) →
    s.ext.storageAnswers = List.replicate q .ok ++ ss →
    (∀ ps : List PushAnswer, p = 0 → s.ext.pushAnswers = List.replicate (256 * q) .ok ++ ps →
      exec (.read four dev) s = .next (State.faulted { s with
        ext := { s.ext with
          storageAnswers := ss, pushAnswers := ps,
          calls := (readCalls d ch (s.drive d).backing s.blk.rba q).reverse ++ s.ext.calls } } .pastEndOfDrive)) ∧
    (∀ (ws : List Word) (ps : List PullAnswer), p ≤ 256 → ws.length = 256 * (q + 1) →
      ws.take p = s.blk.dataBuf.toList.take p → s.ext.pullAnswers = (ws.drop p).map PullAnswer.word ++ ps →
      ∀ i ∈ [Instr.write four dev, .writeVerify four dev], exec i s = .next (State.setBacking (State.faulted { s with
        ext := { s.ext with
          storageAnswers := ss, pullAnswers := ps,
          calls := (((ws.drop (256 * q)).drop (if q = 0 then p else 0)).map fun x => Call.dmaPull ch (.word x)).reverse ++
            (writeCalls d ch s.blk.rba ws p q).reverse ++ s.ext.calls } } .pastEndOfDrive) d
        (storeWords (s.drive d).backing rba ws q)))

/-- R238, R263, R268 (c), R272, R275 and R289 (decisions D22, D31): a storage call of a data-movement phase that fails ends
the command with the defective-block report, after the `q` sectors moved before it in the same firing, with the RBA at the
failing sector; those `q` sectors stay pushed or stored. Its code is a free value where the creation arguments do not fix it
(log entry 9): the statement holds for every value. What a failed write leaves in its own sector, and a failed zero in its
range, is not stated (log entry 7); no other byte of storage changes. `ws` is the words of the `q` sectors and of the failing
one, the first of them pulled by earlier firings. -/
def Obligations.StorageFailureReported : Prop :=
  ∀ (four : Bool) (dev : BitVec 3) (s : State) (d : DriveNo) (found : List Byte) (ss : List StorageAnswer),
    s.Runs .p1 → s.Addresses d →
    let failedCall (c : Call) (x : State) (m : Memory) : State :=
      State.failed (State.setBacking { x with
        ext := { x.ext with storageAnswers := ss, calls := c :: x.ext.calls } } d m) s.params.errDefective
    let m := (s.drive d).backing
    let ch := s.blk.dmaChannel
    let p := s.blk.dataPos
    (∀ q, s.blk.ctrl.getLsbD 1 = true → q < s.blk.sectorCount.toNat - s.blk.sectorPos.toNat →
      s.blk.rba.toNat + q < (s.drive d).totalSectors.toNat →
      s.ext.storageAnswers = List.replicate q .ok ++ .fail found :: ss →
      let lba := s.blk.rba + BitVec.ofNat 32 q
      let pos := s.blk.sectorPos + BitVec.ofNat 16 q
      let spent (a : Nat) (x : State) : State := { x with blk := { x.blk with acc := a } }
      (∀ ps : List PushAnswer, p = 0 → s.ext.pushAnswers = List.replicate (256 * q) .ok ++ ps →
        exec (.read four dev) s = .next (spent (readDelay s.params d s.blk.rba q)
          (failedCall (.storageRead d lba (.fail found)) { s with
            blk := { s.blk with
              dataBuf := if q = 0 then s.blk.dataBuf else Memory.readSector m (s.blk.rba.toNat + q - 1)
              sectorPos := pos, rba := lba }
            ext := { s.ext with
              pushAnswers := ps, calls := (readCalls d ch m s.blk.rba q).reverse ++ s.ext.calls } } m))) ∧
      (∀ (ws : List Word) (ps : List PullAnswer), p ≤ 256 → ws.length = 256 * (q + 1) →
        ws.take p = s.blk.dataBuf.toList.take p → s.ext.pullAnswers = (ws.drop p).map PullAnswer.word ++ ps →
        ∀ i ∈ [Instr.write four dev, .writeVerify four dev], ∃ m',
          exec i s = .next (spent (writeDelay s.params d s.blk.rba q)
            (failedCall (.storageWrite d lba (.fail found)) { s with
              blk := { s.blk with dataPos := 256, dataBuf := sectorOf (ws.drop (256 * q)), sectorPos := pos, rba := lba }
              ext := { s.ext with
                pullAnswers := ps,
                calls := (((ws.drop (256 * q)).drop (if q = 0 then p else 0)).map fun x =>
                    Call.dmaPull ch (.word x)).reverse ++
                  (writeCalls d ch s.blk.rba ws p q).reverse ++ s.ext.calls } } m')) ∧
          ∀ a, a < 512 * lba.toNat ∨ 512 * (lba.toNat + 1) ≤ a →
            Memory.read m' a = Memory.read (storeWords m s.blk.rba.toNat ws q) a)) ∧
    (s.ext.storageAnswers = .fail found :: ss →
      ∃ m', exec (.formatUnit four dev) s =
          .next (failedCall (.storageZero d 0 ((s.drive d).lastSector.toNat + 1) (.fail found)) s m') ∧
        ∀ a, 512 * ((s.drive d).lastSector.toNat + 1) ≤ a → Memory.read m' a = Memory.read m a)

/-- R289 and R290 (decision D22): P1 of Format-Unit zeroes the sectors 0 to `LastSector(d)` and no other byte of storage,
with no DMA call and whatever `DMA_ENA` is. -/
def Obligations.FormatUnitZeroesStorage : Prop :=
  ∀ (four : Bool) (dev : BitVec 3) (s : State) (d : DriveNo) (ss : List StorageAnswer),
    s.Runs .p1 → s.Addresses d → s.ext.storageAnswers = .ok :: ss →
    let n := (s.drive d).lastSector.toNat + 1
    ∃ m', exec (.formatUnit four dev) s = .next (State.setBacking (State.advanced { s with
        ext := { s.ext with storageAnswers := ss, calls := .storageZero d 0 n .ok :: s.ext.calls } } .p2 s.params.tBase)
        d m') ∧
      (∀ k, k < n → Memory.readSector m' k = Vector.replicate 256 0) ∧
      (∀ a, 512 * n ≤ a → Memory.read m' a = Memory.read (s.drive d).backing a)

/-- R267, R273, R279, R281, R285, R290, R292 and R235 (decision D26): P2 of every drive command with one reports completion:
a zero error code, the device-status word, a zero remaining count, the last-processed address and a zero recovery count. -/
def Obligations.DriveCommandCompletion : Prop :=
  ∀ (four : Bool) (dev : BitVec 3) (s : State) (d : DriveNo), s.Runs .p2 → s.Addresses d →
    ∀ i ∈ completingCommands four dev,
      exec i s = .next (s.succeeded [hdr s.blk.command s.blk.cmdDev.code 7, 0x0000, s.params.deviceStatusWord, 0x0000,
        (s.blk.rba - 1).extractLsb' 0 16, (s.blk.rba - 1).extractLsb' 16 16, 0x0000])

/-! The sector buffer. -/

/-- R325 and R329 (decision D23): P0 of the sector-buffer commands loads the count, faults above 256, and else posts
transfer-ready for the adapter. -/
def Obligations.SectorBufferSetup : Prop :=
  ∀ (four : Bool) (dev : BitVec 3) (s : State), s.Runs .p0 → s.blk.cmdDev = .adapter →
    ∀ i ∈ [Instr.sectorBufferWrite four dev, .sectorBufferRead four dev],
      (256 < (s.blk.cmdWord 1).toNat → exec i s = .next (s.faulted .sectorBufferCount)) ∧
      ((s.blk.cmdWord 1).toNat ≤ 256 → exec i s = .next
        (State.ready { s with blk := { s.blk with sectorPos := 0, sectorCount := s.blk.cmdWord 1 } } .adapter))

/-- R326 (decision D23): a data-movement firing of Sector-buffer write that is never refused fills the sectors left of the
sector buffer, and no other byte of it changes. `ws` is the words of the sectors left, the first of them pulled by earlier
firings. R232: one that the DMA engine leaves without data after `q` sectors and `r` words fills the `q` sectors, keeps the
`r` words in the data buffer, leaves the cursors at the word it did not get, and arms the clock with `T_BASE`. -/
def Obligations.SectorBufferWriteFills : Prop :=
  (∀ (four : Bool) (dev : BitVec 3) (s : State) (ws : List Word) (ps : List PullAnswer),
    let n := s.blk.sectorCount.toNat - s.blk.sectorPos.toNat
    let p := s.blk.dataPos
    let m' := storeWords s.blk.sectorBuf s.blk.sectorPos.toNat ws n
    s.MovesBuffer → p < 256 → (n = 0 → p = 0) → s.blk.sectorPos.toNat ≤ s.blk.sectorCount.toNat →
    s.blk.sectorCount.toNat ≤ 256 → ws.length = 256 * n → ws.take p = s.blk.dataBuf.toList.take p →
    s.ext.pullAnswers = (ws.drop p).map PullAnswer.word ++ ps →
    exec (.sectorBufferWrite four dev) s = .next (State.advanced { s with
      blk := { s.blk with
        dataPos := 0, dataBuf := if n = 0 then s.blk.dataBuf else sectorOf (ws.drop (256 * (n - 1))),
        sectorPos := s.blk.sectorCount, sectorBuf := m' }
      ext := { s.ext with
        pullAnswers := ps,
        calls := ((ws.drop p).map fun x => Call.dmaPull s.blk.dmaChannel (.word x)).reverse ++ s.ext.calls } }
      .p2 s.params.tBase) ∧
    ∀ a, a < 512 * s.blk.sectorPos.toNat ∨ 512 * s.blk.sectorCount.toNat ≤ a →
      Memory.read m' a = Memory.read s.blk.sectorBuf a) ∧
  ∀ (four : Bool) (dev : BitVec 3) (s : State) (q r : Nat) (ws : List Word) (ps : List PullAnswer),
    let p := s.blk.dataPos
    s.MovesBuffer → p ≤ ws.length → p < 256 → q < s.blk.sectorCount.toNat - s.blk.sectorPos.toNat → r < 256 →
    s.blk.sectorCount.toNat ≤ 256 → ws.length = 256 * q + r → ws.take p = s.blk.dataBuf.toList.take p →
    s.ext.pullAnswers = (ws.drop p).map PullAnswer.word ++ .noData :: ps →
    exec (.sectorBufferWrite four dev) s = .next { s with
      blk := { s.blk with
        clock := armedClock s.params s.params.tBase, acc := 0, dataPos := r,
        dataBuf := overlay (ws.drop (256 * q)) (if q = 0 then s.blk.dataBuf else sectorOf (ws.drop (256 * (q - 1)))),
        sectorPos := s.blk.sectorPos + BitVec.ofNat 16 q,
        sectorBuf := storeWords s.blk.sectorBuf s.blk.sectorPos.toNat ws q }
      ext := { s.ext with
        pullAnswers := ps,
        calls := .dmaPull s.blk.dmaChannel .noData ::
          ((ws.drop p).map fun x => Call.dmaPull s.blk.dmaChannel (.word x)).reverse ++ s.ext.calls } }

/-- R330 and R232: a data-movement firing of Sector-buffer read that starts a sector and is never refused pushes the words of
the sectors left of the sector buffer in order, and leaves the buffer as it was; one that is refused a word after `q` sectors
and `r` words leaves the cursors at that word and arms the clock with `T_BASE`. R233: a firing that resumes inside a sector
pushes the data buffer's words from the cursor on, without loading it again, and goes on as a firing at the start of the next
sector does; refused again after `r` more words of that sector, it leaves the cursor at that word. -/
def Obligations.SectorBufferReadDrains : Prop :=
  (∀ (four : Bool) (dev : BitVec 3) (s : State) (ps : List PushAnswer),
    let n := s.blk.sectorCount.toNat - s.blk.sectorPos.toNat
    let k := s.blk.sectorPos.toNat
    s.MovesBuffer → s.blk.dataPos = 0 → k ≤ s.blk.sectorCount.toNat → s.blk.sectorCount.toNat ≤ 256 →
    s.ext.pushAnswers = List.replicate (256 * n) .ok ++ ps →
    exec (.sectorBufferRead four dev) s = .next (State.advanced { s with
      blk := { s.blk with
        dataBuf := if n = 0 then s.blk.dataBuf else Memory.readSector s.blk.sectorBuf (k + n - 1),
        sectorPos := s.blk.sectorCount }
      ext := { s.ext with
        pushAnswers := ps,
        calls := ((sectorWords s.blk.sectorBuf k n).map fun x => Call.dmaPush s.blk.dmaChannel x .ok).reverse ++
          s.ext.calls } }
      .p2 s.params.tBase)) ∧
  (∀ (four : Bool) (dev : BitVec 3) (s : State) (q r : Nat) (ps : List PushAnswer),
    let k := s.blk.sectorPos.toNat
    let w := Memory.readSector s.blk.sectorBuf (k + q)
    s.MovesBuffer → s.blk.dataPos = 0 → q < s.blk.sectorCount.toNat - k → r < 256 → s.blk.sectorCount.toNat ≤ 256 →
    s.ext.pushAnswers = List.replicate (256 * q + r) .ok ++ .noData :: ps →
    exec (.sectorBufferRead four dev) s = .next { s with
      blk := { s.blk with
        clock := armedClock s.params s.params.tBase, acc := 0, dataBuf := w, dataPos := r,
        sectorPos := s.blk.sectorPos + BitVec.ofNat 16 q }
      ext := { s.ext with
        pushAnswers := ps,
        calls := .dmaPush s.blk.dmaChannel (w.toList.getD r 0) .noData ::
          ((sectorWords s.blk.sectorBuf k q ++ w.toList.take r).map fun x =>
            Call.dmaPush s.blk.dmaChannel x .ok).reverse ++ s.ext.calls } }) ∧
  ∀ (four : Bool) (dev : BitVec 3) (s : State) (ps : List PushAnswer),
    let p := s.blk.dataPos
    let w := s.blk.dataBuf.toList
    let ch := s.blk.dmaChannel
    s.MovesBuffer → 0 < p → p < 256 → s.blk.sectorPos.toNat < s.blk.sectorCount.toNat → s.blk.sectorCount.toNat ≤ 256 →
    (s.ext.pushAnswers = List.replicate (256 - p) .ok ++ ps →
      let t : State := { s with
        blk := { s.blk with dataPos := 0, sectorPos := s.blk.sectorPos + 1 }
        ext := { s.ext with
          pushAnswers := ps, calls := ((w.drop p).map fun x => Call.dmaPush ch x .ok).reverse ++ s.ext.calls } }
      exec (.sectorBufferRead four dev) s = exec (.sectorBufferRead four dev) t ∧
      ∃ u, exec (.sectorBufferRead four dev) s = .next u ∧ u.blk.fault = s.blk.fault) ∧
    ∀ r, p + r < 256 → s.ext.pushAnswers = List.replicate r .ok ++ .noData :: ps →
      exec (.sectorBufferRead four dev) s = .next { s with
        blk := { s.blk with clock := armedClock s.params s.params.tBase, acc := 0, dataPos := p + r }
        ext := { s.ext with
          pushAnswers := ps,
          calls := .dmaPush ch (w.getD (p + r) 0) .noData ::
            (((w.drop p).take r).map fun x => Call.dmaPush ch x .ok).reverse ++ s.ext.calls } }

/-- R327 and R331 (decision D23): P2 of the sector-buffer commands leaves an empty report and the status 0x01 and posts
success for the adapter. -/
def Obligations.SectorBufferCompletion : Prop :=
  ∀ (four : Bool) (dev : BitVec 3) (s : State), s.Runs .p2 → s.blk.cmdDev = .adapter →
    ∀ i ∈ [Instr.sectorBufferWrite four dev, .sectorBufferRead four dev],
      exec i s = .next (s.resolved [] 0x01 .adapter 0x1)

/-- R331: a Sector-buffer read after a Sector-buffer write of `n` sectors returns exactly the words written. -/
def Obligations.SectorBufferReadsBack : Prop :=
  ∀ (four : Bool) (dev : BitVec 3) (s : State) (n : Nat) (ws : List Word) (ps : List PullAnswer),
    s.MovesBuffer → s.blk.dataPos = 0 → s.blk.sectorPos = 0 → s.blk.sectorCount.toNat = n → n ≤ 256 →
    ws.length = 256 * n → s.ext.pullAnswers = ws.map PullAnswer.word ++ ps →
    ∃ t, exec (.sectorBufferWrite four dev) s = .next t ∧
      ∀ (u : State) (qs : List PushAnswer), u.MovesBuffer → u.blk.dataPos = 0 → u.blk.sectorPos = 0 →
        u.blk.sectorCount.toNat = n → u.blk.sectorBuf = t.blk.sectorBuf →
        u.ext.pushAnswers = List.replicate (256 * n) .ok ++ qs →
        ∃ v, exec (.sectorBufferRead four dev) u = .next v ∧
          pushedWords v.ext.calls = pushedWords u.ext.calls ++ ws

/-- R275: the data moved by the data phase of Write or Write-Verify, and read back from the same RBA by that of Read, is
identical. R275 states it on the condition that storage returns what was last written at each RBA; that the model's storage
does so is its choice (log entry 19; R83, decision D44). -/
def Obligations.WrittenSectorsReadBack : Prop :=
  ∀ (four : Bool) (dev : BitVec 3) (s : State) (d : DriveNo) (n : Nat) (ws : List Word) (ss : List StorageAnswer)
    (ps : List PullAnswer),
    s.MovesDrive d → s.blk.dataPos = 0 → s.blk.sectorPos = 0 → s.blk.sectorCount.toNat = n →
    s.blk.rba.toNat + n ≤ (s.drive d).totalSectors.toNat → ws.length = 256 * n →
    s.ext.storageAnswers = List.replicate n .ok ++ ss → s.ext.pullAnswers = ws.map PullAnswer.word ++ ps →
    ∀ i ∈ [Instr.write four dev, .writeVerify four dev], ∃ t, exec i s = .next t ∧
      ∀ (u : State) (rs : List StorageAnswer) (qs : List PushAnswer), u.MovesDrive d → u.blk.dataPos = 0 →
        u.blk.sectorPos = 0 → u.blk.sectorCount.toNat = n → u.blk.rba = s.blk.rba → u.drive d = t.drive d →
        u.ext.storageAnswers = List.replicate n .ok ++ rs → u.ext.pushAnswers = List.replicate (256 * n) .ok ++ qs →
        ∃ v, exec (.read four dev) u = .next v ∧ pushedWords v.ext.calls = pushedWords u.ext.calls ++ ws

/-- R73 (decision D37): a sector stored in canonical memory reads back; byte `2 i` is the low byte of word `i` and byte
`2 i + 1` its high byte; every byte outside the sector reads as before; the canonical form is kept. -/
def Obligations.SectorReadAfterWrite : Prop :=
  ∀ (m : Memory) (k : Nat) (w : Sector), Memory.wf m = true →
    let m' := Memory.writeSector m k w
    Memory.wf m' = true ∧ Memory.readSector m' k = w ∧
    (∀ i : Fin 256, Memory.read m' (512 * k + 2 * i.val) = w[i].extractLsb' 0 8 ∧
      Memory.read m' (512 * k + 2 * i.val + 1) = w[i].extractLsb' 8 8) ∧
    ∀ a, a < 512 * k ∨ 512 * (k + 1) ≤ a → Memory.read m' a = Memory.read m a

/-! Queries. -/

/-- R310 and R311 (decisions D25, D27): Get-Device-Status to a present drive with no interrupt pending. -/
def Obligations.DeviceStatusReport : Prop :=
  ∀ (four : Bool) (dev : BitVec 3) (s : State) (d : DriveNo), s.Runs .p0 → s.Addresses d →
    s.blk.status.getLsbD 0 = false → s.blk.irqInProgress = false →
    exec (.getDeviceStatus four dev) s =
      .next (s.succeeded [hdr 0x08 (driveCode d) 9, 0, s.params.deviceStatusWord, 0, 0, 0, 0, 0, 0])

/-- R314 (decision D28): Get-Device-Config to the adapter with no interrupt pending, whatever the drives hold. -/
def Obligations.AdapterConfigReport : Prop :=
  ∀ (four : Bool) (s : State), s.Runs .p0 → s.blk.cmdDev = .adapter →
    s.blk.status.getLsbD 0 = false → s.blk.irqInProgress = false →
    exec (.getDeviceConfigAdapter four) s = .next (s.succeeded (0x06E9 :: s.params.adapterConfigWords.toList))

/-- R316 and R317 (decisions D29, D52): Get-Device-Config to a present drive with no interrupt pending. -/
def Obligations.DriveConfigReport : Prop :=
  ∀ (four : Bool) (s : State) (d : DriveNo), s.Runs .p0 → s.Addresses d →
    s.blk.status.getLsbD 0 = false → s.blk.irqInProgress = false →
    ∀ i ∈ [Instr.getDeviceConfigDrive0 four, .getDeviceConfigDrive1 four],
      exec i s = .next (s.succeeded [hdr 0x09 (driveCode d) 6, s.params.driveConfigW1,
        (s.drive d).totalSectors.extractLsb' 0 16, (s.drive d).totalSectors.extractLsb' 16 16, (s.drive d).tracks,
        ((s.drive d).spt.setWidth 16 <<< 8) ||| (s.drive d).heads.setWidth 16])

/-- R320 (decision D30): Get-Position-Info to the adapter with no interrupt pending reports the configuration bytes, two a
word, the lower-numbered byte in bits 7:0. -/
def Obligations.PositionInfoReport : Prop :=
  ∀ (four : Bool) (dev : BitVec 3) (s : State), s.Runs .p0 → s.blk.cmdDev = .adapter →
    s.blk.status.getLsbD 0 = false → s.blk.irqInProgress = false →
    let b := s.blk.cfg
    exec (.getPositionInfo four dev) s =
      .next (s.succeeded [0x05EA, b[1] ++ b[0], b[3] ++ b[2], b[5] ++ b[4], b[7] ++ b[6]])

/-- R335 (decision D24): Diagnostic to the adapter with no interrupt pending. -/
def Obligations.DiagnosticReport : Prop :=
  ∀ (four : Bool) (dev : BitVec 3) (s : State), s.Runs .p0 → s.blk.cmdDev = .adapter →
    s.blk.status.getLsbD 0 = false → s.blk.irqInProgress = false →
    exec (.diagnostic four dev) s = .next (s.succeeded [0x02F2, 0x0000])

/-- R404 (decision D25): a query or diagnostic that passes its target checks faults while an interrupt is pending, by either
flag, and changes nothing but `fault`. -/
def Obligations.PendingInterruptFaultsQueries : Prop :=
  ∀ (four : Bool) (dev : BitVec 3) (s : State), s.Runs .p0 →
    s.blk.status.getLsbD 0 = true ∨ s.blk.irqInProgress = true →
    (∀ d, s.Addresses d → ∀ i ∈ [Instr.getDeviceStatus four dev, .getDeviceConfigDrive0 four, .getDeviceConfigDrive1 four],
      exec i s = .next (s.faulted .irqAlreadyPending)) ∧
    (s.blk.cmdDev = .adapter →
      ∀ i ∈ [Instr.getDeviceConfigAdapter four, .getPositionInfo four dev, .diagnostic four dev],
        exec i s = .next (s.faulted .irqAlreadyPending))

/-! Bus configuration. -/

/-- R351, R355, R356 (decisions D40, D41): a configuration read returns the byte and the feedback call the enable bit, with
no other effect; a write of byte 0 or 1 changes nothing. -/
def Obligations.ConfigReadsAndIgnoredWrites : Prop :=
  ∀ s : State,
    (∀ i : BitVec 3, exec (.cfgRead i) s =
      .next { s with ext := { s.ext with result := .byte (s.blk.cfg[i.toNat]'i.isLt) } }) ∧
    exec .cfgFeedback s = .next { s with ext := { s.ext with result := .bit ((s.blk.cfg[2]).getLsbD 0) } } ∧
    (∀ (i : BitVec 3) (v : Byte), i.toNat < 2 → exec (.cfgWriteIgnored i v) s = .next s)

/-- R351 to R354, R356 to R358 (decisions D40, D41): a configuration write of byte 2 to 7 stores the byte, decodes the DMA
channel and the enable bit of byte 2 anew, makes the ROM calls in the adapter variant, and changes nothing else; a
configuration reset writes 0 to byte 2. Whether the ROM is mapped is a free value (log entry 11): the statement holds for
every value of `Config.romMapped`. -/
def Obligations.ConfigWriteDecodes : Prop :=
  ∀ s : State,
    let after (i : Nat) (v : Byte) : State :=
      let b := s.blk.cfg.setIfInBounds i v
      let f := b[2].extractLsb' 2 4
      let rom := .romPlace b[3] :: .romDisable :: s.ext.calls
      { s with
        blk := { s.blk with
          cfg := b, dmaChannel := if f = 2 ∨ 8 ≤ f.toNat then s.blk.dmaChannel else f.setWidth 3
          ioEnabled := b[2].getLsbD 0 }
        ext := { s.ext with
          calls := if s.params.variant = .integrated then s.ext.calls
            else if b[2].getLsbD 0 = true ∧ Config.romMapped b[3] = true then .romEnable :: rom else rom } }
    (∀ (i : BitVec 3) (v : Byte), 2 ≤ i.toNat →
      exec (.cfgWrite23 i v) s = .next (after i.toNat v) ∧ exec (.cfgWrite47 i v) s = .next (after i.toNat v)) ∧
    exec .cfgReset s = .next (after 2 0x00)

/-! Steps, encodings and invariants. -/

/-- R42, R82, R402: on an instance without a fault a step takes the first entry of the schedule and runs the instruction its
code decodes to; a faulted instance takes no step. The schedule is the model's own (log entries 2, 4). -/
def Obligations.StepRunsDecodedInstruction : Prop :=
  ∀ s : State,
    (∀ (e : Event) (rest : List Event) (c : Code) (i : Instr), s.blk.fault = none → s.ext.schedule = e :: rest →
      eventCode e s = some c → decode c = .ok i →
      step s = exec i { s with ext := { s.ext with schedule := rest } }) ∧
    (∀ r, s.blk.fault = some r → step s = .fault (.halted r))

/-- R102, R107, R117, R120: one word of each format, written out bit by bit, decodes to its instruction: a Command-Interface
write of 0x00E9, a Basic-Control write, the reset byte 0xE4, an end of interrupt with the ignored bit 4 set, a 4-word Read to
drive 1 with every ignored bit set, a Diagnostic, and a configuration write of byte 2. -/
def Obligations.DecodedWords : Prop :=
  decode (.port 0b11000#5 0b0000000011101001#16) = .ok (.wrCir 0x00E9) ∧
  decode (.port 0b10010#5 0b0000000010000011#16) = .ok (.wrCtrl 0x83) ∧
  decode (.attn 0b11100100#8) = .ok .attnResetAD ∧
  decode (.attn 0b00110010#8) = .ok .attnEoiD1 ∧
  decode (.cmd0 0b1111111100100001#16) = .ok (.read true 1) ∧
  decode (.cmd0 0b0000000011110010#16) = .ok (.diagnostic false 7) ∧
  decode (.cfgop 0b01010#5 0b00001101#8) = .ok (.cfgWrite23 2 0x0D)

/-- 30_encoding.md: every well-formed instruction, with every operand, is what its encoding decodes to. -/
def Obligations.DecodeOfEncode : Prop := ∀ i : Instr, i.wf = true → decode (encode i) = .ok i

/-- R50 and R450 (decision D38): the power-on state keeps the invariant, is Idle, quiescent and unfaulted, and has the
interface unbound and the line low. The drives of power-on are the model's choice (log entry 6). -/
def Obligations.ResetKeepsInvariant : Prop :=
  State.reset.Inv ∧ State.reset.idle ∧ State.reset.unfaulted ∧ State.reset.blk.ioEnabled = false ∧
    State.reset.blk.irqLine = false

/-- R23, R29 to R31, R34, R35, R38, R49, R86, R351, R354: every step keeps the invariant, from every state that keeps it and
with every schedule and every answer of the external agents. -/
def Obligations.StepKeepsInvariant : Prop := ∀ s t : State, s.Inv → step s = .next t → t.Inv

/-- R465: with `BUSY` and `CIP` clear, the guard is clear, the engine is Idle and no reset is pending, so a command request is
accepted, from every state that keeps the invariant. -/
def Obligations.QuietStatusAcceptsRequest : Prop :=
  ∀ s : State, s.Inv → s.blk.ioEnabled = true → s.blk.fault = none → s.blk.status.getLsbD 4 = false →
    s.blk.status.getLsbD 5 = false →
    s.blk.cmdReqInProgress = false ∧ s.blk.phase = .idle ∧ s.blk.resetPending = false ∧
    ∀ r ∈ commandRequests, ∃ t, exec r.1 s = .next t ∧ t.blk.fault = none ∧ t.blk.cmdReqInProgress = true

/-- R119 and R42: from every state that keeps the invariant an unfaulted instance takes its step; only a configuration call
with an index it does not take is refused (R120). -/
def Obligations.StepsAreNeverStuck : Prop :=
  ∀ s : State, s.Inv → s.blk.fault = none →
    (∃ t, step s = .next t) ∨
    ∃ op data rest, s.ext.schedule = .config op data :: rest ∧ 16 ≤ op.toNat ∧ op.toNat % 8 ≠ 0 ∧
      step s = .refused (.undecoded .callTakesNoIndex)

/-- R402 (decision D56) and R418: an instruction that raises a fatal fault leaves the block as it was before it but for
`fault`. The calls that it made stay made: only a data-movement firing of Read, Write or Write-Verify makes calls before it
faults, and one that moves `q` sectors and then reaches the end of the drive keeps the calls of those sectors, the words
pulled for the next one, and what it stored; no other faulting instruction changes anything but `fault`. `ws` is as in
PastEndOfDriveFaults. -/
def Obligations.FatalFaultRollsBack : Prop :=
  (∀ (i : Instr) (s t : State), s.blk.fault = none → exec i s = .next t → t.blk.fault ≠ none →
    t.blk = { s.blk with fault := t.blk.fault } ∧ s.ext.calls <:+ t.ext.calls ∧
    ((∃ four dev, i ∈ [Instr.read four dev, .write four dev, .writeVerify four dev]) ∨ ∃ r, t = s.faulted r)) ∧
  ∀ (four : Bool) (dev : BitVec 3) (s : State) (d : DriveNo) (q : Nat) (ss : List StorageAnswer),
    let p := s.blk.dataPos
    let ch := s.blk.dmaChannel
    let rba := s.blk.rba.toNat
    let m := (s.drive d).backing
    let total := (s.drive d).totalSectors.toNat
    s.MovesDrive d → q < s.blk.sectorCount.toNat - s.blk.sectorPos.toNat → total ≤ rba + q → (0 < q → rba + q ≤ total) →
    s.ext.storageAnswers = List.replicate q .ok ++ ss →
    (∀ ps : List PushAnswer, p = 0 → s.ext.pushAnswers = List.replicate (256 * q) .ok ++ ps →
      ∃ t, exec (.read four dev) s = .next t ∧ t.blk = { s.blk with fault := some .pastEndOfDrive } ∧
        t.drive0 = s.drive0 ∧ t.drive1 = s.drive1 ∧
        t.ext.calls = (readCalls d ch m s.blk.rba q).reverse ++ s.ext.calls) ∧
    (∀ (ws : List Word) (ps : List PullAnswer), p ≤ 256 → ws.length = 256 * (q + 1) →
      ws.take p = s.blk.dataBuf.toList.take p → s.ext.pullAnswers = (ws.drop p).map PullAnswer.word ++ ps →
      ∀ i ∈ [Instr.write four dev, .writeVerify four dev], ∃ t, exec i s = .next t ∧
        t.blk = { s.blk with fault := some .pastEndOfDrive } ∧ (t.drive d).backing = storeWords m rba ws q ∧
        (∀ e, e ≠ d → t.drive e = s.drive e) ∧
        t.ext.calls = (((ws.drop (256 * q)).drop (if q = 0 then p else 0)).map fun x => Call.dmaPull ch (.word x)).reverse ++
          (writeCalls d ch s.blk.rba ws p q).reverse ++ s.ext.calls)

/-- R48 and R83: no instruction changes a creation argument or a drive's descriptor, and none but Write, Write-Verify and
Format-Unit changes what a drive holds. -/
def Obligations.OnlyStoringCommandsChangeStorage : Prop :=
  ∀ (i : Instr) (s t : State), exec i s = .next t →
    t.params = s.params ∧ (∀ d, (t.drive d).descriptor = (s.drive d).descriptor) ∧
    ((∀ four dev, i ≠ .write four dev ∧ i ≠ .writeVerify four dev ∧ i ≠ .formatUnit four dev) →
      t.drive0 = s.drive0 ∧ t.drive1 = s.drive1)

end Statements
end

