-- ==== Sys2Proof/Laws/Memory.lean ====
section
/-! SUPPORT. What the memory operations do, by the read of one byte: a store changes the bytes of its range and no other,
a sector written reads back, and every operation keeps the canonical form. -/

namespace Sys2Proof.Machine

/-! Reads of the pieces that a store is made of. -/

theorem Memory.read_filter (p : Nat → Bool) (m : Memory) (x : Nat) :
    Memory.read (m.filter fun c => p c.1) x = if p x then Memory.read m x else Memory.absent := by
  induction m with
  | nil => simp [Memory.read]
  | cons c m ih =>
    obtain ⟨k, b⟩ := c
    by_cases hk : k = x
    · subst hk
      cases hp : p k
      · simpa [List.filter_cons, hp] using ih
      · simp [hp, Memory.read]
    · cases hp : p k
      · simpa [List.filter_cons, hp, Memory.read, hk] using ih
      · simpa [List.filter_cons, hp, Memory.read, hk] using ih

theorem Memory.read_append_right (m1 m2 : Memory) (x : Nat) (h : ∀ c ∈ m1, c.1 ≠ x) :
    Memory.read (m1 ++ m2) x = Memory.read m2 x := by
  induction m1 with
  | nil => rfl
  | cons c m1 ih =>
    have hc : c.1 ≠ x := h c (by simp)
    have := ih fun d hd => h d (by simp [hd])
    simpa [Memory.read, hc] using this

theorem Memory.read_append_left (m1 m2 : Memory) (x : Nat) (h : ∀ c ∈ m2, c.1 ≠ x) :
    Memory.read (m1 ++ m2) x = Memory.read m1 x := by
  induction m1 with
  | nil =>
    induction m2 with
    | nil => rfl
    | cons c m2 ih =>
      have hc : c.1 ≠ x := h c (by simp)
      have := ih fun d hd => h d (by simp [hd])
      simpa [Memory.read, hc] using this
  | cons c m1 ih => simp [Memory.read, ih]

theorem Memory.mem_cells (bs : List Byte) (a : Nat) (c : Host.Cell) (h : c ∈ Memory.cells a bs) :
    a ≤ c.1 ∧ c.1 < a + bs.length := by
  induction bs generalizing a with
  | nil => simp [Memory.cells] at h
  | cons b bs ih =>
    simp only [Memory.cells, List.length_cons] at h ⊢
    split at h
    · have := ih (a + 1) h
      omega
    · rcases List.mem_cons.1 h with rfl | h
      · simp
      · have := ih (a + 1) h
        omega

theorem Memory.read_cells (bs : List Byte) (a i : Nat) : Memory.read (Memory.cells a bs) (a + i) = bs.getD i Memory.absent := by
  induction bs generalizing a i with
  | nil => simp [Memory.cells, Memory.read]
  | cons b bs ih =>
    simp only [Memory.cells]
    cases i with
    | zero =>
      by_cases hb : b = Memory.absent
      · simp only [hb, if_true, Nat.add_zero, List.getD_cons_zero]
        have h := Memory.read_append_left [] (Memory.cells (a + 1) bs) a fun c hc => by
          have := (Memory.mem_cells bs (a + 1) c hc).1
          omega
        simpa [Memory.read] using h
      · simp [hb, Memory.read]
    | succ i =>
      have h := ih (a + 1) i
      have e : a + 1 + i = a + (i + 1) := by omega
      rw [e] at h
      by_cases hb : b = Memory.absent
      · simpa [hb] using h
      · have : a ≠ a + (i + 1) := by omega
        simpa [hb, Memory.read, this] using h

theorem Memory.mem_below {m : Memory} {a : Nat} {c : Host.Cell} (h : c ∈ Memory.below m a) : c.1 < a := by
  simpa [Memory.below] using (List.mem_filter.1 h).2

theorem Memory.mem_above {m : Memory} {a : Nat} {c : Host.Cell} (h : c ∈ Memory.above m a) : a ≤ c.1 := by
  simpa [Memory.above] using (List.mem_filter.1 h).2

theorem Memory.read_below (m : Memory) (a x : Nat) :
    Memory.read (Memory.below m a) x = if x < a then Memory.read m x else Memory.absent := by
  simpa [Memory.below] using Memory.read_filter (fun k => decide (k < a)) m x

theorem Memory.read_above (m : Memory) (a x : Nat) :
    Memory.read (Memory.above m a) x = if a ≤ x then Memory.read m x else Memory.absent := by
  simpa [Memory.above] using Memory.read_filter (fun k => decide (a ≤ k)) m x

/-! Stores. -/

/-- What a store leaves at every address. -/
theorem Memory.read_store (m : Memory) (a : Nat) (bs : List Byte) (x : Nat) :
    Memory.read (Memory.store m a bs) x =
      if a ≤ x ∧ x < a + bs.length then bs.getD (x - a) Memory.absent else Memory.read m x := by
  unfold Memory.store
  by_cases h1 : x < a
  · rw [Memory.read_append_left _ _ _ fun c hc => by have := Memory.mem_above hc; omega,
      Memory.read_append_left _ _ _ fun c hc => by have := (Memory.mem_cells bs a c hc).1; omega,
      Memory.read_below, if_pos h1, if_neg (by omega)]
  · by_cases h2 : x < a + bs.length
    · rw [Memory.read_append_left _ _ _ fun c hc => by have := Memory.mem_above hc; omega,
        Memory.read_append_right _ _ _ fun c hc => by have := Memory.mem_below hc; omega, if_pos (by omega)]
      have := Memory.read_cells bs a (x - a)
      rwa [show a + (x - a) = x by omega] at this
    · rw [Memory.read_append_right, Memory.read_above, if_pos (by omega), if_neg (by omega)]
      intro c hc
      rcases List.mem_append.1 hc with hc | hc
      · have := Memory.mem_below hc
        omega
      · have := (Memory.mem_cells bs a c hc).2
        omega

/-- A store leaves every byte outside its range. -/
theorem Memory.read_store_outside (m : Memory) (a : Nat) (bs : List Byte) (x : Nat) (h : x < a ∨ a + bs.length ≤ x) :
    Memory.read (Memory.store m a bs) x = Memory.read m x := by
  rw [Memory.read_store, if_neg (by omega)]

/-- What a zero leaves at every address. -/
theorem Memory.read_zero (m : Memory) (a n x : Nat) :
    Memory.read (Memory.zero m a n) x = if a ≤ x ∧ x < a + n then 0 else Memory.read m x := by
  unfold Memory.zero
  by_cases h1 : x < a
  · rw [Memory.read_append_left _ _ _ fun c hc => by have := Memory.mem_above hc; omega,
      Memory.read_below, if_pos h1, if_neg (by omega)]
  · rw [Memory.read_append_right _ _ _ fun c hc => by have := Memory.mem_below hc; omega, Memory.read_above]
    by_cases h2 : x < a + n
    · rw [if_neg (by omega), if_pos (by omega), Memory.absent]
    · rw [if_pos (by omega), if_neg (by omega)]

/-! The canonical form. -/

theorem Memory.wfFrom_mono {m : Memory} {lo hi : Nat} (h : Memory.wfFrom hi m = true) (hl : lo ≤ hi) :
    Memory.wfFrom lo m = true := by
  cases m with
  | nil => rfl
  | cons c m =>
    simp only [Memory.wfFrom, Bool.and_eq_true, decide_eq_true_eq] at h ⊢
    exact ⟨⟨by omega, h.1.2⟩, h.2⟩

theorem Memory.wfFrom_filter (p : Host.Cell → Bool) {m : Memory} {lo : Nat} (h : Memory.wfFrom lo m = true) :
    Memory.wfFrom lo (m.filter p) = true := by
  induction m generalizing lo with
  | nil => rfl
  | cons c m ih =>
    simp only [Memory.wfFrom, Bool.and_eq_true, decide_eq_true_eq] at h
    cases hp : p c
    · simpa [List.filter_cons, hp] using Memory.wfFrom_mono (ih h.2) (by omega)
    · simpa [List.filter_cons, hp, Memory.wfFrom, h.1] using ih h.2

theorem Memory.wfFrom_append {m1 m2 : Memory} {lo hi : Nat} (h1 : Memory.wfFrom lo m1 = true) (hb : ∀ c ∈ m1, c.1 < hi)
    (h2 : Memory.wfFrom hi m2 = true) (hl : lo ≤ hi) : Memory.wfFrom lo (m1 ++ m2) = true := by
  induction m1 generalizing lo with
  | nil => exact Memory.wfFrom_mono h2 hl
  | cons c m1 ih =>
    simp only [Memory.wfFrom, Bool.and_eq_true, decide_eq_true_eq] at h1
    have hc := hb c (by simp)
    have := ih h1.2 (fun d hd => hb d (by simp [hd])) (by omega)
    simpa [Memory.wfFrom, h1.1] using this

theorem Memory.wfFrom_cells (bs : List Byte) (a : Nat) : Memory.wfFrom a (Memory.cells a bs) = true := by
  induction bs generalizing a with
  | nil => rfl
  | cons b bs ih =>
    simp only [Memory.cells]
    split
    · exact Memory.wfFrom_mono (ih (a + 1)) (by omega)
    · simp [Memory.wfFrom, *]

theorem Memory.wfFrom_above {m : Memory} {lo : Nat} (a : Nat) (h : Memory.wfFrom lo m = true) :
    Memory.wfFrom a (Memory.above m a) = true := by
  induction m generalizing lo with
  | nil => rfl
  | cons c m ih =>
    simp only [Memory.wfFrom, Bool.and_eq_true, decide_eq_true_eq] at h
    by_cases hp : a ≤ c.1
    · have hm := Memory.wfFrom_filter (fun c => decide (a ≤ c.1)) h.2
      simpa [Memory.above, List.filter_cons, hp, Memory.wfFrom, h.1] using hm
    · simpa [Memory.above, List.filter_cons, hp] using ih h.2

/-- A store keeps the canonical form. -/
theorem Memory.wf_store {m : Memory} (a : Nat) (bs : List Byte) (h : Memory.wf m = true) :
    Memory.wf (Memory.store m a bs) = true := by
  unfold Memory.wf Memory.store at *
  rw [List.append_assoc]
  refine Memory.wfFrom_append (Memory.wfFrom_filter _ h) (fun c hc => Memory.mem_below hc) ?_ (Nat.zero_le a)
  exact Memory.wfFrom_append (Memory.wfFrom_cells bs a) (fun c hc => (Memory.mem_cells bs a c hc).2)
    (Memory.wfFrom_above _ h) (by omega)

/-- A zero keeps the canonical form. -/
theorem Memory.wf_zero {m : Memory} (a n : Nat) (h : Memory.wf m = true) : Memory.wf (Memory.zero m a n) = true := by
  unfold Memory.wf Memory.zero at *
  exact Memory.wfFrom_append (Memory.wfFrom_filter _ h) (fun c hc => Memory.mem_below hc)
    (Memory.wfFrom_mono (Memory.wfFrom_above (a + n) h) (by omega)) (Nat.zero_le a)

/-- A sector write keeps the canonical form. -/
theorem Memory.wf_writeSector {m : Memory} (k : Nat) (w : Sector) (h : Memory.wf m = true) :
    Memory.wf (Memory.writeSector m k w) = true := Memory.wf_store _ _ h

/-! Sectors. -/

@[simp] theorem wordBytes_length (ws : List Word) : (wordBytes ws).length = 2 * ws.length := by
  induction ws with
  | nil => rfl
  | cons w ws ih =>
    simp only [wordBytes, List.flatMap_cons, List.length_append, List.length_cons] at ih ⊢
    simp only [List.length_nil]
    omega

theorem wordBytes_getD (ws : List Word) (i : Nat) (h : i < ws.length) (d : Byte) :
    (wordBytes ws).getD (2 * i) d = (ws[i]).extractLsb' 0 8 ∧ (wordBytes ws).getD (2 * i + 1) d = (ws[i]).extractLsb' 8 8 := by
  induction ws generalizing i with
  | nil => simp at h
  | cons w ws ih =>
    cases i with
    | zero => simp [wordBytes]
    | succ i =>
      have := ih i (by simpa using h)
      simpa [wordBytes, List.flatMap_cons, Nat.mul_add] using this

/-- What a sector write leaves in its own bytes (R73). -/
theorem Memory.read_writeSector (m : Memory) (k : Nat) (w : Sector) (i : Fin 256) :
    Memory.read (Memory.writeSector m k w) (512 * k + 2 * i.val) = w[i].extractLsb' 0 8 ∧
    Memory.read (Memory.writeSector m k w) (512 * k + 2 * i.val + 1) = w[i].extractLsb' 8 8 := by
  have hi := i.isLt
  have hl : (wordBytes w.toList).length = 512 := by simp
  have hg := wordBytes_getD w.toList i.val (by simp) Memory.absent
  simp only [Vector.getElem_toList] at hg
  unfold Memory.writeSector sectorBytes
  constructor
  · rw [Memory.read_store, if_pos (by omega), show 512 * k + 2 * i.val - 512 * k = 2 * i.val by omega]
    exact hg.1
  · rw [Memory.read_store, if_pos (by omega), show 512 * k + 2 * i.val + 1 - 512 * k = 2 * i.val + 1 by omega]
    exact hg.2

/-- A sector write leaves every byte outside its sector. -/
theorem Memory.read_writeSector_outside (m : Memory) (k : Nat) (w : Sector) (x : Nat)
    (h : x < 512 * k ∨ 512 * (k + 1) ≤ x) : Memory.read (Memory.writeSector m k w) x = Memory.read m x := by
  unfold Memory.writeSector sectorBytes
  exact Memory.read_store_outside _ _ _ _ (by simp; omega)

/-- A sector read depends on the bytes of the sector only. -/
theorem Memory.readSector_congr {m m' : Memory} {k : Nat}
    (h : ∀ x, 512 * k ≤ x → x < 512 * (k + 1) → Memory.read m' x = Memory.read m x) :
    Memory.readSector m' k = Memory.readSector m k := by
  unfold Memory.readSector
  congr 1
  funext i
  have hi := i.isLt
  unfold Memory.readWord sectorBytes
  rw [h _ (by omega) (by omega), h _ (by omega) (by omega)]

/-- A sector written reads back (R73). -/
theorem Memory.readSector_writeSector (m : Memory) (k : Nat) (w : Sector) :
    Memory.readSector (Memory.writeSector m k w) k = w := by
  apply Vector.ext
  intro i hi
  have h := Memory.read_writeSector m k w ⟨i, hi⟩
  simp only [Memory.readSector, Vector.getElem_ofFn, Memory.readWord, sectorBytes]
  rw [h.1, h.2]
  apply BitVec.eq_of_getLsbD_eq
  intro j hj
  simp only [BitVec.getLsbD_append, BitVec.getLsbD_extractLsb']
  split
  · simp [*]
  · rename_i h8
    have : j - 8 < 8 := by omega
    have e : 8 + (j - 8) = j := by omega
    simp [this, e]

/-- A sector write leaves every other sector (R73). -/
theorem Memory.readSector_writeSector_other (m : Memory) (k j : Nat) (w : Sector) (h : j ≠ k) :
    Memory.readSector (Memory.writeSector m k w) j = Memory.readSector m j :=
  Memory.readSector_congr fun x h1 h2 => Memory.read_writeSector_outside m k w x (by omega)

end Sys2Proof.Machine
end

