-- ==== Sys2Proof/Laws/State.lean ====
section
/-! SUPPORT. What each update of the state leaves in each field of State: one lemma a field, so that no proof unfolds an
update. -/

namespace Sys2Proof.Machine

theorem State.postExt_congr (s t : State) (hc : s.blk.ctrl = t.blk.ctrl) (he : s.ext = t.ext) (hp : s.params = t.params) :
    s.postExt = t.postExt := by simp only [State.postExt, hc, he, hp]

@[simp] theorem State.call_params (s : State) (c : Call) : (s.call c).params = s.params := rfl
@[simp] theorem State.call_blk (s : State) (c : Call) : (s.call c).blk =
    s.blk := rfl
@[simp] theorem State.call_drive0 (s : State) (c : Call) : (s.call c).drive0 = s.drive0 := rfl
@[simp] theorem State.call_drive1 (s : State) (c : Call) : (s.call c).drive1 = s.drive1 := rfl
@[simp] theorem State.call_drive (s : State) (c : Call) (d : DriveNo) : (s.call c).drive d = s.drive d := by cases d <;> rfl
@[simp] theorem State.call_ext (s : State) (c : Call) : (s.call c).ext = { s.ext with calls := c :: s.ext.calls } := rfl

@[simp] theorem State.irqRaise_params (s : State) : s.irqRaise.params = s.params := rfl
@[simp] theorem State.irqRaise_blk (s : State) : s.irqRaise.blk =
    s.blk := rfl
@[simp] theorem State.irqRaise_drive0 (s : State) : s.irqRaise.drive0 = s.drive0 := rfl
@[simp] theorem State.irqRaise_drive1 (s : State) : s.irqRaise.drive1 = s.drive1 := rfl
@[simp] theorem State.irqRaise_drive (s : State) (d : DriveNo) : s.irqRaise.drive d = s.drive d := by cases d <;> rfl
@[simp] theorem State.irqRaise_ext (s : State) : s.irqRaise.ext = { s.ext with calls := .irqRaise s.params.irqLineNo :: s.ext.calls } := rfl

@[simp] theorem State.irqLower_params (s : State) : s.irqLower.params = s.params := rfl
@[simp] theorem State.irqLower_blk (s : State) : s.irqLower.blk =
    s.blk := rfl
@[simp] theorem State.irqLower_drive0 (s : State) : s.irqLower.drive0 = s.drive0 := rfl
@[simp] theorem State.irqLower_drive1 (s : State) : s.irqLower.drive1 = s.drive1 := rfl
@[simp] theorem State.irqLower_drive (s : State) (d : DriveNo) : s.irqLower.drive d = s.drive d := by cases d <;> rfl
@[simp] theorem State.irqLower_ext (s : State) : s.irqLower.ext = { s.ext with calls := .irqLower s.params.irqLineNo :: s.ext.calls } := rfl

@[simp] theorem State.answer_params (s : State) (v : ReadValue) : (s.answer v).params = s.params := rfl
@[simp] theorem State.answer_blk (s : State) (v : ReadValue) : (s.answer v).blk =
    s.blk := rfl
@[simp] theorem State.answer_drive0 (s : State) (v : ReadValue) : (s.answer v).drive0 = s.drive0 := rfl
@[simp] theorem State.answer_drive1 (s : State) (v : ReadValue) : (s.answer v).drive1 = s.drive1 := rfl
@[simp] theorem State.answer_drive (s : State) (v : ReadValue) (d : DriveNo) : (s.answer v).drive d = s.drive d := by cases d <;> rfl
@[simp] theorem State.answer_ext (s : State) (v : ReadValue) : (s.answer v).ext = { s.ext with result := v } := rfl

@[simp] theorem State.arm_params (s : State) (t : Nat) : (s.arm t).params = s.params := rfl
@[simp] theorem State.arm_blk (s : State) (t : Nat) : (s.arm t).blk =
    { s.blk with clock := armedClock s.params t } := rfl
@[simp] theorem State.arm_drive0 (s : State) (t : Nat) : (s.arm t).drive0 = s.drive0 := rfl
@[simp] theorem State.arm_drive1 (s : State) (t : Nat) : (s.arm t).drive1 = s.drive1 := rfl
@[simp] theorem State.arm_drive (s : State) (t : Nat) (d : DriveNo) : (s.arm t).drive d = s.drive d := by cases d <;> rfl
@[simp] theorem State.arm_ext (s : State) (t : Nat) : (s.arm t).ext = s.ext := rfl

@[simp] theorem State.disarm_params (s : State) : s.disarm.params = s.params := rfl
@[simp] theorem State.disarm_blk (s : State) : s.disarm.blk =
    { s.blk with clock := .disarmed } := rfl
@[simp] theorem State.disarm_drive0 (s : State) : s.disarm.drive0 = s.drive0 := rfl
@[simp] theorem State.disarm_drive1 (s : State) : s.disarm.drive1 = s.drive1 := rfl
@[simp] theorem State.disarm_drive (s : State) (d : DriveNo) : s.disarm.drive d = s.drive d := by cases d <;> rfl
@[simp] theorem State.disarm_ext (s : State) : s.disarm.ext = s.ext := rfl

@[simp] theorem State.setStatus_params (s : State) (v : Byte) : (s.setStatus v).params = s.params := rfl
@[simp] theorem State.setStatus_blk (s : State) (v : Byte) : (s.setStatus v).blk =
    { s.blk with status := v } := rfl
@[simp] theorem State.setStatus_drive0 (s : State) (v : Byte) : (s.setStatus v).drive0 = s.drive0 := rfl
@[simp] theorem State.setStatus_drive1 (s : State) (v : Byte) : (s.setStatus v).drive1 = s.drive1 := rfl
@[simp] theorem State.setStatus_drive (s : State) (v : Byte) (d : DriveNo) : (s.setStatus v).drive d = s.drive d := by cases d <;> rfl
@[simp] theorem State.setStatus_ext (s : State) (v : Byte) : (s.setStatus v).ext = s.ext := rfl

@[simp] theorem State.setBusy_params (s : State) : s.setBusy.params = s.params := rfl
@[simp] theorem State.setBusy_blk (s : State) : s.setBusy.blk =
    { s.blk with status := setBits statusBusy s.blk.status } := rfl
@[simp] theorem State.setBusy_drive0 (s : State) : s.setBusy.drive0 = s.drive0 := rfl
@[simp] theorem State.setBusy_drive1 (s : State) : s.setBusy.drive1 = s.drive1 := rfl
@[simp] theorem State.setBusy_drive (s : State) (d : DriveNo) : s.setBusy.drive d = s.drive d := by cases d <;> rfl
@[simp] theorem State.setBusy_ext (s : State) : s.setBusy.ext = s.ext := rfl

@[simp] theorem State.report_params (s : State) (ws : List Word) : (s.report ws).params = s.params := rfl
@[simp] theorem State.report_blk (s : State) (ws : List Word) : (s.report ws).blk =
    { s.blk with statusQueue := writeWords s.blk.statusQueue 0 ws, statusLen := ws.length, statusPos := 0 } := rfl
@[simp] theorem State.report_drive0 (s : State) (ws : List Word) : (s.report ws).drive0 = s.drive0 := rfl
@[simp] theorem State.report_drive1 (s : State) (ws : List Word) : (s.report ws).drive1 = s.drive1 := rfl
@[simp] theorem State.report_drive (s : State) (ws : List Word) (d : DriveNo) : (s.report ws).drive d = s.drive d := by cases d <;> rfl
@[simp] theorem State.report_ext (s : State) (ws : List Word) : (s.report ws).ext = s.ext := rfl

@[simp] theorem State.setPhase_params (s : State) (p : Phase) : (s.setPhase p).params = s.params := rfl
@[simp] theorem State.setPhase_blk (s : State) (p : Phase) : (s.setPhase p).blk =
    { s.blk with phase := p } := rfl
@[simp] theorem State.setPhase_drive0 (s : State) (p : Phase) : (s.setPhase p).drive0 = s.drive0 := rfl
@[simp] theorem State.setPhase_drive1 (s : State) (p : Phase) : (s.setPhase p).drive1 = s.drive1 := rfl
@[simp] theorem State.setPhase_drive (s : State) (p : Phase) (d : DriveNo) : (s.setPhase p).drive d = s.drive d := by cases d <;> rfl
@[simp] theorem State.setPhase_ext (s : State) (p : Phase) : (s.setPhase p).ext = s.ext := rfl

@[simp] theorem State.resolve_params (s : State) : s.resolve.params = s.params := rfl
@[simp] theorem State.resolve_blk (s : State) : s.resolve.blk =
    { s.blk with phase := .idle } := rfl
@[simp] theorem State.resolve_drive0 (s : State) : s.resolve.drive0 = s.drive0 := rfl
@[simp] theorem State.resolve_drive1 (s : State) : s.resolve.drive1 = s.drive1 := rfl
@[simp] theorem State.resolve_drive (s : State) (d : DriveNo) : s.resolve.drive d = s.drive d := by cases d <;> rfl
@[simp] theorem State.resolve_ext (s : State) : s.resolve.ext = s.ext := rfl

@[simp] theorem State.resetStart_params (s : State) : s.resetStart.params = s.params := rfl
@[simp] theorem State.resetStart_blk (s : State) : s.resetStart.blk =
    { s.blk with resetPending := true, clock := armedClock s.params s.params.tReset, status := setBits statusBusy s.blk.status } := rfl
@[simp] theorem State.resetStart_drive0 (s : State) : s.resetStart.drive0 = s.drive0 := rfl
@[simp] theorem State.resetStart_drive1 (s : State) : s.resetStart.drive1 = s.drive1 := rfl
@[simp] theorem State.resetStart_drive (s : State) (d : DriveNo) : s.resetStart.drive d = s.drive d := by cases d <;> rfl
@[simp] theorem State.resetStart_ext (s : State) : s.resetStart.ext = s.ext := rfl

@[simp] theorem State.startFiring_params (s : State) : s.startFiring.params = s.params := rfl
@[simp] theorem State.startFiring_blk (s : State) : s.startFiring.blk =
    { s.blk with clock := .disarmed, acc := 0 } := rfl
@[simp] theorem State.startFiring_drive0 (s : State) : s.startFiring.drive0 = s.drive0 := rfl
@[simp] theorem State.startFiring_drive1 (s : State) : s.startFiring.drive1 = s.drive1 := rfl
@[simp] theorem State.startFiring_drive (s : State) (d : DriveNo) : s.startFiring.drive d = s.drive d := by cases d <;> rfl
@[simp] theorem State.startFiring_ext (s : State) : s.startFiring.ext = s.ext := rfl

@[simp] theorem State.loadTransfer_params (s : State) : s.loadTransfer.params = s.params := rfl
@[simp] theorem State.loadTransfer_blk (s : State) : s.loadTransfer.blk =
    { s.blk with rba := s.blk.rbaOperand, sectorPos := 0, sectorCount := s.blk.countOperand } := rfl
@[simp] theorem State.loadTransfer_drive0 (s : State) : s.loadTransfer.drive0 = s.drive0 := rfl
@[simp] theorem State.loadTransfer_drive1 (s : State) : s.loadTransfer.drive1 = s.drive1 := rfl
@[simp] theorem State.loadTransfer_drive (s : State) (d : DriveNo) : s.loadTransfer.drive d = s.drive d := by cases d <;> rfl
@[simp] theorem State.loadTransfer_ext (s : State) : s.loadTransfer.ext = s.ext := rfl

@[simp] theorem State.endPhase_params (s : State) (p : Phase) (t : Nat) : (s.endPhase p t).params = s.params := rfl
@[simp] theorem State.endPhase_blk (s : State) (p : Phase) (t : Nat) : (s.endPhase p t).blk =
    { s.blk with status := statusInProgress, phase := p, clock := armedClock s.params t } := rfl
@[simp] theorem State.endPhase_drive0 (s : State) (p : Phase) (t : Nat) : (s.endPhase p t).drive0 = s.drive0 := rfl
@[simp] theorem State.endPhase_drive1 (s : State) (p : Phase) (t : Nat) : (s.endPhase p t).drive1 = s.drive1 := rfl
@[simp] theorem State.endPhase_drive (s : State) (p : Phase) (t : Nat) (d : DriveNo) : (s.endPhase p t).drive d = s.drive d := by cases d <;> rfl
@[simp] theorem State.endPhase_ext (s : State) (p : Phase) (t : Nat) : (s.endPhase p t).ext = s.ext := rfl

@[simp] theorem State.suspend_params (s : State) : s.suspend.params = s.params := rfl
@[simp] theorem State.suspend_blk (s : State) : s.suspend.blk =
    { s.blk with clock := armedClock s.params (s.blk.acc + s.params.tBase) } := rfl
@[simp] theorem State.suspend_drive0 (s : State) : s.suspend.drive0 = s.drive0 := rfl
@[simp] theorem State.suspend_drive1 (s : State) : s.suspend.drive1 = s.drive1 := rfl
@[simp] theorem State.suspend_drive (s : State) (d : DriveNo) : s.suspend.drive d = s.drive d := by cases d <;> rfl
@[simp] theorem State.suspend_ext (s : State) : s.suspend.ext = s.ext := rfl

@[simp] theorem State.nextWord_params (s : State) : s.nextWord.params = s.params := rfl
@[simp] theorem State.nextWord_blk (s : State) : s.nextWord.blk =
    { s.blk with dataPos := s.blk.dataPos + 1 } := rfl
@[simp] theorem State.nextWord_drive0 (s : State) : s.nextWord.drive0 = s.drive0 := rfl
@[simp] theorem State.nextWord_drive1 (s : State) : s.nextWord.drive1 = s.drive1 := rfl
@[simp] theorem State.nextWord_drive (s : State) (d : DriveNo) : s.nextWord.drive d = s.drive d := by cases d <;> rfl
@[simp] theorem State.nextWord_ext (s : State) : s.nextWord.ext = s.ext := rfl

@[simp] theorem State.takeWord_params (s : State) (v : Word) : (s.takeWord v).params = s.params := rfl
@[simp] theorem State.takeWord_blk (s : State) (v : Word) : (s.takeWord v).blk =
    { s.blk with dataBuf := s.blk.dataBuf.setIfInBounds s.blk.dataPos v, dataPos := s.blk.dataPos + 1 } := rfl
@[simp] theorem State.takeWord_drive0 (s : State) (v : Word) : (s.takeWord v).drive0 = s.drive0 := rfl
@[simp] theorem State.takeWord_drive1 (s : State) (v : Word) : (s.takeWord v).drive1 = s.drive1 := rfl
@[simp] theorem State.takeWord_drive (s : State) (v : Word) (d : DriveNo) : (s.takeWord v).drive d = s.drive d := by cases d <;> rfl
@[simp] theorem State.takeWord_ext (s : State) (v : Word) : (s.takeWord v).ext = s.ext := rfl

@[simp] theorem State.sectorDone_params (s : State) : s.sectorDone.params = s.params := rfl
@[simp] theorem State.sectorDone_blk (s : State) : s.sectorDone.blk =
    { s.blk with dataPos := 0, sectorPos := s.blk.sectorPos + 1, rba := s.blk.rba + 1 } := rfl
@[simp] theorem State.sectorDone_drive0 (s : State) : s.sectorDone.drive0 = s.drive0 := rfl
@[simp] theorem State.sectorDone_drive1 (s : State) : s.sectorDone.drive1 = s.drive1 := rfl
@[simp] theorem State.sectorDone_drive (s : State) (d : DriveNo) : s.sectorDone.drive d = s.drive d := by cases d <;> rfl
@[simp] theorem State.sectorDone_ext (s : State) : s.sectorDone.ext = s.ext := rfl

@[simp] theorem State.bufferSectorDone_params (s : State) : s.bufferSectorDone.params = s.params := rfl
@[simp] theorem State.bufferSectorDone_blk (s : State) : s.bufferSectorDone.blk =
    { s.blk with dataPos := 0, sectorPos := s.blk.sectorPos + 1 } := rfl
@[simp] theorem State.bufferSectorDone_drive0 (s : State) : s.bufferSectorDone.drive0 = s.drive0 := rfl
@[simp] theorem State.bufferSectorDone_drive1 (s : State) : s.bufferSectorDone.drive1 = s.drive1 := rfl
@[simp] theorem State.bufferSectorDone_drive (s : State) (d : DriveNo) : s.bufferSectorDone.drive d = s.drive d := by cases d <;> rfl
@[simp] theorem State.bufferSectorDone_ext (s : State) : s.bufferSectorDone.ext = s.ext := rfl

@[simp] theorem State.setCtrl_params (s : State) (v : Byte) : (s.setCtrl v).params = s.params := rfl
@[simp] theorem State.setCtrl_blk (s : State) (v : Byte) : (s.setCtrl v).blk =
    { s.blk with ctrl := v } := rfl
@[simp] theorem State.setCtrl_drive0 (s : State) (v : Byte) : (s.setCtrl v).drive0 = s.drive0 := rfl
@[simp] theorem State.setCtrl_drive1 (s : State) (v : Byte) : (s.setCtrl v).drive1 = s.drive1 := rfl
@[simp] theorem State.setCtrl_drive (s : State) (v : Byte) (d : DriveNo) : (s.setCtrl v).drive d = s.drive d := by cases d <;> rfl
@[simp] theorem State.setCtrl_ext (s : State) (v : Byte) : (s.setCtrl v).ext = s.ext := rfl

@[simp] theorem State.scheduled_params (s : State) (e : Event) : (s.scheduled e).params = s.params := rfl
@[simp] theorem State.scheduled_blk (s : State) (e : Event) : (s.scheduled e).blk =
    s.blk := rfl
@[simp] theorem State.scheduled_drive0 (s : State) (e : Event) : (s.scheduled e).drive0 = s.drive0 := rfl
@[simp] theorem State.scheduled_drive1 (s : State) (e : Event) : (s.scheduled e).drive1 = s.drive1 := rfl
@[simp] theorem State.scheduled_drive (s : State) (e : Event) (d : DriveNo) : (s.scheduled e).drive d = s.drive d := by cases d <;> rfl
@[simp] theorem State.scheduled_ext (s : State) (e : Event) : (s.scheduled e).ext = { s.ext with schedule := e :: s.ext.schedule } := rfl

/-! A post. -/

@[simp] theorem State.post_params (s : State) (dev : Target) (r : Reason) : (s.post dev r).params = s.params := by
  simp only [State.post]; split <;> rfl
@[simp] theorem State.post_blk (s : State) (dev : Target) (r : Reason) : (s.post dev r).blk = s.blk.posted dev r := by
  simp only [State.post]; split <;> rfl
@[simp] theorem State.post_drive0 (s : State) (dev : Target) (r : Reason) : (s.post dev r).drive0 = s.drive0 := by
  simp only [State.post]; split <;> rfl
@[simp] theorem State.post_drive1 (s : State) (dev : Target) (r : Reason) : (s.post dev r).drive1 = s.drive1 := by
  simp only [State.post]; split <;> rfl
@[simp] theorem State.post_ext (s : State) (dev : Target) (r : Reason) : (s.post dev r).ext = s.postExt := by
  simp only [State.post, State.postExt]; split <;> rfl
@[simp] theorem State.post_drive (s : State) (dev : Target) (r : Reason) (d : DriveNo) : (s.post dev r).drive d = s.drive d := by
  cases d
  · exact State.post_drive0 s dev r
  · exact State.post_drive1 s dev r

/-! Resolutions, transfer-ready and reset completion: the block after each, in one record update. -/

/-- The block after a report, a whole-register status and a post. -/
def Block.reported (b : Block) (ws : List Word) (v : Byte) (dev : Target) (r : Reason) (p : Phase) : Block :=
  { b with
    statusQueue := writeWords b.statusQueue 0 ws, statusLen := ws.length, statusPos := 0, status := setBits statusIrq v,
    irqStatus := isrByte dev.code r.code, irqInProgress := true, irqLatch := true, phase := p }

@[simp] theorem State.succeed_params (s : State) (ws : List Word) : (s.succeed ws).params =
    s.params := by
  simp [State.succeed]
@[simp] theorem State.succeed_blk (s : State) (ws : List Word) : (s.succeed ws).blk =
    s.blk.reported ws statusReport s.blk.cmdDev .success .idle := by
  simp [State.succeed, Block.posted, Block.reported]
@[simp] theorem State.succeed_drive0 (s : State) (ws : List Word) : (s.succeed ws).drive0 =
    s.drive0 := by
  simp [State.succeed]
@[simp] theorem State.succeed_drive1 (s : State) (ws : List Word) : (s.succeed ws).drive1 =
    s.drive1 := by
  simp [State.succeed]
@[simp] theorem State.succeed_ext (s : State) (ws : List Word) : (s.succeed ws).ext =
    s.postExt := by
  simp only [State.succeed, State.resolve_ext, State.post_ext]
  exact State.postExt_congr _ _ (by simp) (by simp) (by simp)
@[simp] theorem State.succeed_drive (s : State) (ws : List Word) (d : DriveNo) : (s.succeed ws).drive d = s.drive d := by
  cases d
  · exact State.succeed_drive0 s ws
  · exact State.succeed_drive1 s ws

@[simp] theorem State.fail_params (s : State) (e : ErrorCode) : (s.fail e).params =
    s.params := by
  simp [State.fail]
@[simp] theorem State.fail_blk (s : State) (e : ErrorCode) : (s.fail e).blk =
    s.blk.reported (s.errorWords e) statusReport s.blk.cmdDev .failure .idle := by
  simp [State.fail, Block.posted, Block.reported]
@[simp] theorem State.fail_drive0 (s : State) (e : ErrorCode) : (s.fail e).drive0 =
    s.drive0 := by
  simp [State.fail]
@[simp] theorem State.fail_drive1 (s : State) (e : ErrorCode) : (s.fail e).drive1 =
    s.drive1 := by
  simp [State.fail]
@[simp] theorem State.fail_ext (s : State) (e : ErrorCode) : (s.fail e).ext =
    s.postExt := by
  simp only [State.fail, State.resolve_ext, State.post_ext]
  exact State.postExt_congr _ _ (by simp) (by simp) (by simp)
@[simp] theorem State.fail_drive (s : State) (e : ErrorCode) (d : DriveNo) : (s.fail e).drive d = s.drive d := by
  cases d
  · exact State.fail_drive0 s e
  · exact State.fail_drive1 s e

@[simp] theorem State.completeQuietly_params (s : State) : s.completeQuietly.params =
    s.params := by
  simp [State.completeQuietly]
@[simp] theorem State.completeQuietly_blk (s : State) : s.completeQuietly.blk =
    s.blk.reported [] statusNoReport .adapter .success .idle := by
  simp [State.completeQuietly, Block.posted, Block.reported]
@[simp] theorem State.completeQuietly_drive0 (s : State) : s.completeQuietly.drive0 =
    s.drive0 := by
  simp [State.completeQuietly]
@[simp] theorem State.completeQuietly_drive1 (s : State) : s.completeQuietly.drive1 =
    s.drive1 := by
  simp [State.completeQuietly]
@[simp] theorem State.completeQuietly_ext (s : State) : s.completeQuietly.ext =
    s.postExt := by
  simp only [State.completeQuietly, State.resolve_ext, State.post_ext]
  exact State.postExt_congr _ _ (by simp) (by simp) (by simp)
@[simp] theorem State.completeQuietly_drive (s : State) (d : DriveNo) : s.completeQuietly.drive d = s.drive d := by
  cases d
  · exact State.completeQuietly_drive0 s
  · exact State.completeQuietly_drive1 s

@[simp] theorem State.transferReady_params (s : State) (dev : Target) : (s.transferReady dev).params =
    s.params := by
  simp [State.transferReady]
@[simp] theorem State.transferReady_blk (s : State) (dev : Target) : (s.transferReady dev).blk =
    { s.blk.posted dev .xferReady with
      status := statusTransferReady, phase := .p1, dataPos := 0, clock := armedClock s.params s.params.tBase } := by
  simp [State.transferReady, Block.posted]
  decide
@[simp] theorem State.transferReady_drive0 (s : State) (dev : Target) : (s.transferReady dev).drive0 =
    s.drive0 := by
  simp [State.transferReady]
@[simp] theorem State.transferReady_drive1 (s : State) (dev : Target) : (s.transferReady dev).drive1 =
    s.drive1 := by
  simp [State.transferReady]
@[simp] theorem State.transferReady_ext (s : State) (dev : Target) : (s.transferReady dev).ext =
    s.postExt := by
  simp only [State.transferReady, State.arm_ext, State.post_ext]
  exact State.postExt_congr _ _ (by simp) (by simp) (by simp)
@[simp] theorem State.transferReady_drive (s : State) (dev : Target) (d : DriveNo) : (s.transferReady dev).drive d = s.drive d := by
  cases d
  · exact State.transferReady_drive0 s dev
  · exact State.transferReady_drive1 s dev

@[simp] theorem State.resetComplete_params (s : State) : s.resetComplete.params =
    s.params := by
  simp [State.resetComplete]
@[simp] theorem State.resetComplete_blk (s : State) : s.resetComplete.blk =
    { s.blk.reported [resetWord] statusReport .adapter .resetComplete .idle with
      resetPending := false, cmdReqInProgress := false, cmdPos := 0 } := by
  simp [State.resetComplete, Block.posted, Block.reported, Block.requestCleared]
@[simp] theorem State.resetComplete_drive0 (s : State) : s.resetComplete.drive0 =
    s.drive0 := by
  simp [State.resetComplete]
@[simp] theorem State.resetComplete_drive1 (s : State) : s.resetComplete.drive1 =
    s.drive1 := by
  simp [State.resetComplete]
@[simp] theorem State.resetComplete_ext (s : State) : s.resetComplete.ext =
    s.postExt := by
  simp only [State.resetComplete, State.post_ext, State.post_ext]
  exact State.postExt_congr _ _ (by simp) (by simp) (by simp)
@[simp] theorem State.resetComplete_drive (s : State) (d : DriveNo) : s.resetComplete.drive d = s.drive d := by
  cases d
  · exact State.resetComplete_drive0 s
  · exact State.resetComplete_drive1 s

/-! The storage behind the drives. -/

@[simp] theorem State.setBacking_params (s : State) (d : DriveNo) (m : Memory) : (s.setBacking d m).params = s.params := by
  cases d <;> rfl
@[simp] theorem State.setBacking_blk (s : State) (d : DriveNo) (m : Memory) : (s.setBacking d m).blk = s.blk := by
  cases d <;> rfl
@[simp] theorem State.setBacking_ext (s : State) (d : DriveNo) (m : Memory) : (s.setBacking d m).ext = s.ext := by
  cases d <;> rfl
@[simp] theorem State.setBacking_drive_same (s : State) (d : DriveNo) (m : Memory) :
    (s.setBacking d m).drive d = { s.drive d with backing := m } := by cases d <;> rfl
theorem State.setBacking_drive_other (s : State) (d e : DriveNo) (m : Memory) (h : e ≠ d) :
    (s.setBacking d m).drive e = s.drive e := by
  cases d <;> cases e <;> first | exact absurd rfl h | rfl
@[simp] theorem State.setBacking_descriptor (s : State) (d e : DriveNo) (m : Memory) :
    ((s.setBacking d m).drive e).descriptor = (s.drive e).descriptor := by cases d <;> cases e <;> rfl

/-! The fatal fault. -/

@[simp] theorem raiseFatal_blk (s0 s1 : State) (r : FatalReason) :
    (raiseFatal s0 r s1).blk = { s0.blk with fault := some r } := rfl
@[simp] theorem raiseFatal_params (s0 s1 : State) (r : FatalReason) : (raiseFatal s0 r s1).params = s1.params := rfl
@[simp] theorem raiseFatal_drive0 (s0 s1 : State) (r : FatalReason) : (raiseFatal s0 r s1).drive0 = s1.drive0 := rfl
@[simp] theorem raiseFatal_drive1 (s0 s1 : State) (r : FatalReason) : (raiseFatal s0 r s1).drive1 = s1.drive1 := rfl
@[simp] theorem raiseFatal_ext (s0 s1 : State) (r : FatalReason) : (raiseFatal s0 r s1).ext = s1.ext := rfl

/-! The free values of the host bus. -/

@[simp] theorem State.busRead_params (s : State) (w : Width) : (s.busRead w).params = s.params := rfl
@[simp] theorem State.busRead_blk (s : State) (w : Width) : (s.busRead w).blk = s.blk := rfl
@[simp] theorem State.busRead_drive0 (s : State) (w : Width) : (s.busRead w).drive0 = s.drive0 := rfl
@[simp] theorem State.busRead_drive1 (s : State) (w : Width) : (s.busRead w).drive1 = s.drive1 := rfl

end Sys2Proof.Machine
end

