-- ==== Sys2Proof/Laws/Engine.lean ====
section
/-! SUPPORT. What the shared operations of the command engine can do: a firing, the checks at its top, the DMA and storage
calls, and the loops of the data movement. -/

namespace Sys2Proof.Machine

/-! Flow. -/

@[simp] theorem Flow.andThen_cont (s : State) (k : State → Flow) : (Flow.cont s).andThen k = k s := rfl
@[simp] theorem Flow.andThen_done (s : State) (k : State → Flow) : (Flow.done s).andThen k = .done s := rfl
@[simp] theorem Flow.andThen_fatal (r : FatalReason) (s : State) (k : State → Flow) :
    (Flow.fatal r s).andThen k = .fatal r s := rfl
@[simp] theorem Flow.andThen_stuck (f : Fault) (k : State → Flow) : (Flow.stuck f).andThen k = .stuck f := rfl
@[simp] theorem Flow.outcome_cont (s0 s : State) : (Flow.cont s).outcome s0 = .next s := rfl
@[simp] theorem Flow.outcome_done (s0 s : State) : (Flow.done s).outcome s0 = .next s := rfl
@[simp] theorem Flow.outcome_fatal (s0 s : State) (r : FatalReason) :
    (Flow.fatal r s).outcome s0 = .next (raiseFatal s0 r s) := rfl
@[simp] theorem Flow.outcome_stuck (s0 : State) (f : Fault) : (Flow.stuck f).outcome s0 = .fault f := rfl

/-- If two pieces in a row answer a state, the first answered one for the second, or ended the firing with it. -/
theorem Flow.andThen_cases {x : Flow} {k : State → Flow} {y : Flow} (h : x.andThen k = y) :
    (∃ s, x = .cont s ∧ k s = y) ∨ (∃ s, x = .done s ∧ y = .done s) ∨ (∃ r s, x = .fatal r s ∧ y = .fatal r s) ∨
      ∃ f, x = .stuck f ∧ y = .stuck f := by
  cases x with
  | cont s => exact .inl ⟨s, rfl, h⟩
  | done s => exact .inr (.inl ⟨s, rfl, h.symm⟩)
  | fatal r s => exact .inr (.inr (.inl ⟨r, s, rfl, h.symm⟩))
  | stuck f => exact .inr (.inr (.inr ⟨f, rfl, h.symm⟩))

/-! A firing (R200 to R202, R207). -/

/-- The body that a firing in phase `p` runs. -/
def bodyOf (p0 p1 p2 : State → Flow) : Phase → State → Flow
  | .idle => .done
  | .p0 => p0
  | .p1 => p1
  | .p2 => p2

/-- Everything that a firing can be. -/
theorem firing_eq (p0 p1 p2 : State → Flow) (s : State) :
    firing p0 p1 p2 s =
      if s.blk.clock = .disarmed then .next s
      else if s.blk.resetPending then .next s.startFiring.resetComplete
      else (bodyOf p0 p1 p2 s.blk.phase s.startFiring).outcome s := by
  unfold firing
  cases s.blk.clock with
  | disarmed => rfl
  | armed t =>
    cases s.blk.resetPending
    · cases s.blk.phase <;> rfl
    · rfl

theorem firing_disarmed {p0 p1 p2 : State → Flow} {s : State} (h : s.blk.clock = .disarmed) :
    firing p0 p1 p2 s = .next s := by rw [firing_eq, if_pos h]

theorem firing_reset {p0 p1 p2 : State → Flow} {s : State} (h : s.blk.clock ≠ .disarmed) (hr : s.blk.resetPending = true) :
    firing p0 p1 p2 s = .next s.startFiring.resetComplete := by rw [firing_eq, if_neg h, if_pos hr]

/-- A firing that runs a phase of the command in execution. -/
theorem firing_runs {p0 p1 p2 : State → Flow} {s : State} {p : Phase} (h : s.Runs p) :
    firing p0 p1 p2 s = (bodyOf p0 p1 p2 p s.startFiring).outcome s := by
  rw [firing_eq, if_neg h.armed, if_neg (by simp [h.noReset]), h.inPhase]

/-! The checks at the top of a firing (R210 to R214, R231, R234, R404). -/

theorem validate_adapter {s : State} (body : DriveNo → Flow) (h : s.blk.cmdDev = .adapter) :
    validate s body = .done s.unsupported := by simp only [validate, driveOnly, h]

theorem validate_absent {s : State} {d : DriveNo} (body : DriveNo → Flow) (h : s.blk.cmdDev = .drive d)
    (hp : (s.drive d).present = false) : validate s body = .done s.notPresent := by
  simp [validate, driveOnly, present, h, hp]

theorem validate_present {s : State} {d : DriveNo} (body : DriveNo → Flow) (h : s.blk.cmdDev = .drive d)
    (hp : (s.drive d).present = true) : validate s body = body d := by simp [validate, driveOnly, present, h, hp]

theorem adapterOnly_adapter {s : State} (body : Flow) (h : s.blk.cmdDev = .adapter) : adapterOnly s body = body := by
  simp only [adapterOnly, h]

theorem adapterOnly_drive {s : State} {d : DriveNo} (body : Flow) (h : s.blk.cmdDev = .drive d) :
    adapterOnly s body = .done s.unsupported := by simp only [adapterOnly, h]

theorem dmaGate_open {s : State} (body : Flow) (h : s.blk.ctrl.getLsbD 1 = true) : dmaGate s body = body := if_pos h

theorem dmaGate_closed {s : State} (body : Flow) (h : s.blk.ctrl.getLsbD 1 = false) :
    dmaGate s body = .done (s.arm s.params.tBase) := if_neg (by rw [ctrlDmaEna, h]; decide)

theorem hasBit_statusIrq (v : Byte) : hasBit statusIrq v = v.getLsbD 0 := by
  revert v
  decide

theorem checkNoPendingIrq_clear {s : State} (body : Flow) (h : s.blk.status.getLsbD 0 = false)
    (hi : s.blk.irqInProgress = false) : checkNoPendingIrq s body = body := by
  simp only [checkNoPendingIrq, hasBit_statusIrq, h, hi, Bool.or_self, Bool.false_eq_true, if_false]

theorem checkNoPendingIrq_pending {s : State} (body : Flow)
    (h : s.blk.status.getLsbD 0 = true ∨ s.blk.irqInProgress = true) :
    checkNoPendingIrq s body = .fatal .irqAlreadyPending s := by
  rcases h with h | h <;> simp only [checkNoPendingIrq, hasBit_statusIrq, h, Bool.true_or, Bool.or_true, if_true]

/-! The ends of a firing, in the terms of the statements (Safety). -/

/-- What the firing's start leaves has the drives, the parameters and the outside of before. -/
theorem State.startFiring_eq (s : State) :
    s.startFiring = { s with blk := { s.blk with clock := .disarmed, acc := 0 } } := rfl

theorem State.ext_eq (s t : State) (hp : s.params = t.params) (hb : s.blk = t.blk) (h0 : s.drive0 = t.drive0)
    (h1 : s.drive1 = t.drive1) (he : s.ext = t.ext) : s = t := by
  cases s
  cases t
  simp_all

theorem State.postExt_startFiring (s : State) : s.startFiring.postExt = s.postExt := rfl

/-- A success at the end of a firing (R226). -/
theorem State.succeed_startFiring (s : State) (ws : List Word) : s.startFiring.succeed ws = s.succeeded ws := by
  apply State.ext_eq <;> simp [State.succeeded, State.resolved, Block.reported]
  · exact ⟨by decide, rfl⟩
  · rfl

/-- A failure at the end of a firing (R226). -/
theorem State.fail_startFiring (s : State) (e : ErrorCode) : s.startFiring.fail e = s.failed e := by
  apply State.ext_eq <;> simp [State.failed, State.resolved, Block.reported, State.errorWords, State.header]
  · exact ⟨by decide, rfl⟩
  · rfl

/-- A report-less success at the end of a firing (R327). -/
theorem State.completeQuietly_startFiring (s : State) : s.startFiring.completeQuietly = s.resolved [] 0x01 .adapter 0x1 := by
  apply State.ext_eq <;> simp [State.resolved, Block.reported]
  · exact ⟨by decide, rfl⟩
  · rfl

/-- The end of a phase without a post, at the end of a firing (R206, R224). -/
theorem State.endPhase_startFiring (s : State) (p : Phase) (t : Nat) : s.startFiring.endPhase p t = s.advanced p t := rfl

/-- The transfer-ready post at the end of a firing (R261, R270, R325). -/
theorem State.transferReady_startFiring (s : State) (dev : Target) : s.startFiring.transferReady dev = s.ready dev := by
  apply State.ext_eq <;> simp [State.ready, Block.posted]
  · exact ⟨by decide, rfl⟩
  · rfl

/-- The completion of a reset by a firing (R456). -/
theorem State.resetComplete_startFiring (s : State) :
    s.startFiring.resetComplete = { s with
      blk := { s.blk with
        resetPending := false, statusQueue := s.blk.statusQueue.setIfInBounds 0 0x01EA, statusLen := 1, statusPos := 0,
        status := 0x09, irqStatus := 0xEA, irqInProgress := true, irqLatch := true, cmdReqInProgress := false, cmdPos := 0,
        phase := .idle, clock := .disarmed, acc := 0 }
      ext := s.postExt } := by
  apply State.ext_eq <;> simp [Block.reported, writeWords]
  · exact ⟨rfl, rfl, rfl⟩
  · rfl

end Sys2Proof.Machine
end

