-- ==== Sys2Proof/Laws/Transfer.lean ====
section
/-! SUPPORT. What the data-movement loops do (R232, R263, R272, R326, R330): a run of words that the DMA engine takes or
gives, the word at which it refuses, and a run of sectors. -/

namespace Sys2Proof.Machine

/-! Words pushed. -/

theorem dmaPush_ok {s : State} {ps : List PushAnswer} (w : Word) (h : s.ext.pushAnswers = .ok :: ps) :
    s.dmaPush w =
      (.ok, { s with ext := { s.ext with
        pushAnswers := ps, calls := .dmaPush s.blk.dmaChannel w .ok :: s.ext.calls } }) := by
  simp [State.dmaPush, State.call, h]

theorem dmaPush_noData {s : State} {ps : List PushAnswer} (w : Word) (h : s.ext.pushAnswers = .noData :: ps) :
    s.dmaPush w =
      (.noData, { s with ext := { s.ext with
        pushAnswers := ps, calls := .dmaPush s.blk.dmaChannel w .noData :: s.ext.calls } }) := by
  simp [State.dmaPush, State.call, h]

theorem Block.dataWord_eq (b : Block) : b.dataWord = b.dataBuf.toList.getD b.dataPos 0 := by
  unfold Block.dataWord Vector.getD List.getD
  by_cases h : b.dataPos < 256
  · simp [h]
  · simp [h]

/-- The state after `n` words pushed from the cursor on. -/
def State.pushed (s : State) (n : Nat) (ps : List PushAnswer) : State :=
  { s with
    blk := { s.blk with dataPos := s.blk.dataPos + n }
    ext := { s.ext with
      pushAnswers := ps,
      calls := (((s.blk.dataBuf.toList.drop s.blk.dataPos).take n).map fun x =>
        Call.dmaPush s.blk.dmaChannel x .ok).reverse ++ s.ext.calls } }

theorem drop_take_succ (ws : List Word) (k n : Nat) (h : k < ws.length) :
    (ws.drop k).take (n + 1) = ws.getD k 0 :: (ws.drop (k + 1)).take n := by
  rw [List.drop_eq_getElem_cons h, List.take_succ_cons]
  simp [List.getD, h]

/-- The DMA engine takes `n` words. -/
theorem pushWords_taken (n : Nat) (s : State) (ps : List PushAnswer)
    (h : s.ext.pushAnswers = List.replicate n .ok ++ ps) (hd : s.blk.dataPos + n ≤ 256) :
    pushWords n s = .cont (s.pushed n ps) := by
  induction n generalizing s with
  | zero =>
    obtain rfl : s.ext.pushAnswers = ps := h
    simp [pushWords, State.pushed]
  | succ n ih =>
    have h1 := dmaPush_ok s.blk.dataWord (ps := List.replicate n .ok ++ ps) (by rw [h]; rfl)
    simp only [pushWords, h1]
    rw [ih _ rfl (by simp; omega)]
    have := drop_take_succ s.blk.dataBuf.toList s.blk.dataPos n (by simp; omega)
    simp [State.pushed, State.nextWord, this, Block.dataWord_eq, Nat.add_assoc, Nat.add_comm 1 n]

/-- The DMA engine takes `k` words and refuses the next (R232). -/
theorem pushWords_refused (k n : Nat) (s : State) (ps : List PushAnswer) (hk : k < n)
    (h : s.ext.pushAnswers = List.replicate k .ok ++ .noData :: ps) (hd : s.blk.dataPos + n ≤ 256) :
    pushWords n s = .done (State.suspend
      { s.pushed k ps with ext := { (s.pushed k ps).ext with
          calls := .dmaPush s.blk.dmaChannel (s.blk.dataBuf.toList.getD (s.blk.dataPos + k) 0) .noData ::
            (s.pushed k ps).ext.calls } }) := by
  induction k generalizing s n with
  | zero =>
    obtain ⟨n, rfl⟩ : ∃ m, n = m + 1 := ⟨n - 1, by omega⟩
    have h1 := dmaPush_noData s.blk.dataWord (ps := ps) (by rw [h]; rfl)
    simp only [pushWords, h1]
    simp [State.pushed, Block.dataWord_eq]
  | succ k ih =>
    obtain ⟨n, rfl⟩ : ∃ m, n = m + 1 := ⟨n - 1, by omega⟩
    have h1 := dmaPush_ok s.blk.dataWord (ps := List.replicate k .ok ++ .noData :: ps) (by rw [h]; rfl)
    simp only [pushWords, h1]
    rw [ih n _ (by omega) rfl (by simp; omega)]
    have := drop_take_succ s.blk.dataBuf.toList s.blk.dataPos k (by simp; omega)
    simp [State.pushed, State.nextWord, this, Block.dataWord_eq, Nat.add_assoc, Nat.add_comm 1 k]

/-! Words pulled. -/

theorem dmaPull_word {s : State} {v : Word} {ps : List PullAnswer} (h : s.ext.pullAnswers = .word v :: ps) :
    s.dmaPull =
      (.word v, { s with ext := { s.ext with
        pullAnswers := ps, calls := .dmaPull s.blk.dmaChannel (.word v) :: s.ext.calls } }) := by
  simp [State.dmaPull, State.call, h]

theorem dmaPull_noData {s : State} {ps : List PullAnswer} (h : s.ext.pullAnswers = .noData :: ps) :
    s.dmaPull =
      (.noData, { s with ext := { s.ext with
        pullAnswers := ps, calls := .dmaPull s.blk.dmaChannel .noData :: s.ext.calls } }) := by
  simp [State.dmaPull, State.call, h]

@[simp] theorem overlay_getElem (ws : List Word) (w : Sector) (i : Nat) (h : i < 256) :
    (overlay ws w)[i] = ws.getD i w[i] := by simp [overlay]

/-- A sector laid over with its own first words is itself. -/
theorem overlay_take_self (w : Sector) (p : Nat) : overlay (w.toList.take p) w = w := by
  apply Vector.ext
  intro i hi
  rw [overlay_getElem _ _ _ hi]
  by_cases h : i < p <;> simp [List.getD, List.getElem?_take, h, hi]

/-- One more word under the cursor. -/
theorem overlay_set (w : Sector) (p : Nat) (v : Word) (ws : List Word) (hp : p < 256) :
    overlay ((w.toList.set p v).take (p + 1) ++ ws) (w.setIfInBounds p v) = overlay (w.toList.take p ++ v :: ws) w := by
  apply Vector.ext
  intro i hi
  rw [overlay_getElem _ _ _ hi, overlay_getElem _ _ _ hi]
  have h1 : ((w.toList.set p v).take (p + 1)).length = p + 1 := by simp; omega
  have h2 : (w.toList.take p).length = p := by simp; omega
  rcases Nat.lt_trichotomy i p with h | h | h
  · simp only [List.getD, List.getElem?_append, h1, h2, if_pos (show i < p + 1 by omega), if_pos h, List.getElem?_take]
    have : p ≠ i := by omega
    simp [hi, this]
  · subst h
    simp only [List.getD, List.getElem?_append, h1, h2, if_pos (show i < i + 1 by omega), if_neg (Nat.lt_irrefl i),
      List.getElem?_take]
    simp [hi]
  · simp only [List.getD, List.getElem?_append, h1, h2, if_neg (show ¬ i < p + 1 by omega), if_neg (show ¬ i < p by omega)]
    obtain ⟨k, rfl⟩ : ∃ k, i = p + 1 + k := ⟨i - p - 1, by omega⟩
    have e1 : p + 1 + k - (p + 1) = k := by omega
    have e2 : p + 1 + k - p = k + 1 := by omega
    have : p ≠ p + 1 + k := by omega
    simp [e1, e2, this]

/-- The state after the words `ws` pulled from the cursor on. -/
def State.pulled (s : State) (ws : List Word) (ps : List PullAnswer) : State :=
  { s with
    blk := { s.blk with
      dataBuf := overlay (s.blk.dataBuf.toList.take s.blk.dataPos ++ ws) s.blk.dataBuf,
      dataPos := s.blk.dataPos + ws.length }
    ext := { s.ext with
      pullAnswers := ps,
      calls := (ws.map fun x => Call.dmaPull s.blk.dmaChannel (.word x)).reverse ++ s.ext.calls } }

theorem State.pulled_nil (s : State) : s.pulled [] s.ext.pullAnswers = s := by
  simp [State.pulled, overlay_take_self]

/-- The DMA engine gives the words `ws`. -/
theorem pullWords_given (ws : List Word) (s : State) (ps : List PullAnswer)
    (h : s.ext.pullAnswers = ws.map PullAnswer.word ++ ps) (hd : s.blk.dataPos + ws.length ≤ 256) :
    pullWords ws.length s = .cont (s.pulled ws ps) := by
  induction ws generalizing s with
  | nil =>
    obtain rfl : s.ext.pullAnswers = ps := h
    simp [pullWords, State.pulled_nil]
  | cons v ws ih =>
    simp only [List.length_cons] at hd
    have h1 := dmaPull_word (v := v) (ps := ws.map PullAnswer.word ++ ps) (by rw [h]; rfl)
    simp only [List.length_cons, pullWords, h1]
    rw [ih _ rfl (by simp; omega)]
    have := overlay_set s.blk.dataBuf s.blk.dataPos v ws (by omega)
    simp [State.pulled, State.takeWord, this, Nat.add_assoc, Nat.add_comm 1]

/-- The DMA engine gives the words `ws` and then has none (R232). -/
theorem pullWords_missing (ws : List Word) (n : Nat) (s : State) (ps : List PullAnswer) (hn : ws.length < n)
    (h : s.ext.pullAnswers = ws.map PullAnswer.word ++ .noData :: ps) (hd : s.blk.dataPos + n ≤ 256) :
    pullWords n s = .done (State.suspend
      { s.pulled ws ps with ext := { (s.pulled ws ps).ext with
          calls := .dmaPull s.blk.dmaChannel .noData :: (s.pulled ws ps).ext.calls } }) := by
  induction ws generalizing s n with
  | nil =>
    obtain ⟨n, rfl⟩ : ∃ m, n = m + 1 := ⟨n - 1, by simp at hn; omega⟩
    have h1 := dmaPull_noData (s := s) (ps := ps) (by rw [h]; rfl)
    simp only [pullWords, h1]
    simp [State.pulled, overlay_take_self]
  | cons v ws ih =>
    obtain ⟨n, rfl⟩ : ∃ m, n = m + 1 := ⟨n - 1, by simp at hn; omega⟩
    simp only [List.length_cons] at hn
    have h1 := dmaPull_word (v := v) (ps := ws.map PullAnswer.word ++ .noData :: ps) (by rw [h]; rfl)
    simp only [pullWords, h1]
    rw [ih n _ (by omega) rfl (by simp; omega)]
    have := overlay_set s.blk.dataBuf s.blk.dataPos v ws (by omega)
    simp [State.pulled, State.takeWord, this, Nat.add_assoc, Nat.add_comm 1]

/-! Storage calls (R216). -/

theorem storageRead_ok {s : State} {ss : List StorageAnswer} (d : DriveNo) (lba : BitVec 32)
    (h : s.ext.storageAnswers = .ok :: ss) :
    s.storageRead d lba =
      (some (Memory.readSector (s.drive d).backing lba.toNat), { s with ext := { s.ext with
        storageAnswers := ss, calls := .storageRead d lba .ok :: s.ext.calls } }) := by
  simp [State.storageRead, State.storageAnswer, State.call, h]

theorem storageRead_fail {s : State} {ss : List StorageAnswer} {found : List Byte} (d : DriveNo) (lba : BitVec 32)
    (h : s.ext.storageAnswers = .fail found :: ss) :
    s.storageRead d lba =
      (none, { s with ext := { s.ext with
        storageAnswers := ss, calls := .storageRead d lba (.fail found) :: s.ext.calls } }) := by
  simp [State.storageRead, State.storageAnswer, State.call, h]

theorem storageWrite_ok {s : State} {ss : List StorageAnswer} (d : DriveNo) (lba : BitVec 32) (w : Sector)
    (h : s.ext.storageAnswers = .ok :: ss) :
    s.storageWrite d lba w =
      (true, State.setBacking { s with ext := { s.ext with
        storageAnswers := ss, calls := .storageWrite d lba .ok :: s.ext.calls } } d
        (Memory.writeSector (s.drive d).backing lba.toNat w)) := by
  simp [State.storageWrite, State.storageAnswer, State.call, h]

theorem storageWrite_fail {s : State} {ss : List StorageAnswer} {found : List Byte} (d : DriveNo) (lba : BitVec 32)
    (w : Sector) (h : s.ext.storageAnswers = .fail found :: ss) :
    s.storageWrite d lba w =
      (false, State.setBacking { s with ext := { s.ext with
        storageAnswers := ss, calls := .storageWrite d lba (.fail found) :: s.ext.calls } } d
        (Memory.store (s.drive d).backing (512 * lba.toNat) (found.take 512))) := by
  simp [State.storageWrite, State.storageAnswer, State.call, h, sectorBytes]

theorem storageZero_ok {s : State} {ss : List StorageAnswer} (d : DriveNo) (first n : Nat)
    (h : s.ext.storageAnswers = .ok :: ss) :
    s.storageZero d first n =
      (true, State.setBacking { s with ext := { s.ext with
        storageAnswers := ss, calls := .storageZero d first n .ok :: s.ext.calls } } d
        (Memory.zero (s.drive d).backing (512 * first) (512 * n))) := by
  simp [State.storageZero, State.storageAnswer, State.call, h, sectorBytes]

theorem storageZero_fail {s : State} {ss : List StorageAnswer} {found : List Byte} (d : DriveNo) (first n : Nat)
    (h : s.ext.storageAnswers = .fail found :: ss) :
    s.storageZero d first n =
      (false, State.setBacking { s with ext := { s.ext with
        storageAnswers := ss, calls := .storageZero d first n (.fail found) :: s.ext.calls } } d
        (Memory.store (s.drive d).backing (512 * first) (found.take (512 * n)))) := by
  simp [State.storageZero, State.storageAnswer, State.call, h, sectorBytes]

end Sys2Proof.Machine
end

