-- ==== Sys2Proof/Laws/Sectors.lean ====
section
/-! SUPPORT. What a run of sectors does in the data-movement loops (R263, R272, R326, R330), and what the words stored by
one read back as. -/

namespace Sys2Proof.Machine

/-! Loops. -/

theorem eachSector_add (body : State → Flow) (a b : Nat) (s : State) :
    eachSector body (a + b) s = (eachSector body a s).andThen (eachSector body b) := by
  induction a generalizing s with
  | zero => simp [eachSector]
  | succ a ih =>
    rw [Nat.add_right_comm]
    simp only [eachSector]
    cases body s <;> simp [ih]

theorem ofNat_succ_add {w : Nat} (x : BitVec w) (n : Nat) : x + 1#w + BitVec.ofNat w n = x + BitVec.ofNat w (n + 1) := by
  rw [BitVec.add_assoc, BitVec.add_comm 1#w, ← BitVec.ofNat_add]

theorem toNat_add_ofNat {w : Nat} (x : BitVec w) (n : Nat) (h : x.toNat + n < 2 ^ w) :
    (x + BitVec.ofNat w n).toNat = x.toNat + n := by
  rw [BitVec.toNat_add, BitVec.toNat_ofNat, Nat.add_mod_mod, Nat.mod_eq_of_lt h]

theorem toNat_add_one {w : Nat} (x : BitVec w) (h : x.toNat + 1 < 2 ^ w) : (x + 1#w).toNat = x.toNat + 1 :=
  toNat_add_ofNat x 1 h

/-! Sectors of a Read. -/

/-- The state after the sector at the RBA is fetched. -/
def State.fetched (s : State) (d : DriveNo) (ss : List StorageAnswer) : State :=
  { s with
    blk := { s.blk with
      dataBuf := Memory.readSector (s.drive d).backing s.blk.rba.toNat,
      acc := s.blk.acc + (Config.readTime d s.blk.rba 1 + s.params.tXfer) }
    ext := { s.ext with storageAnswers := ss, calls := .storageRead d s.blk.rba .ok :: s.ext.calls } }

/-- The fetch of a sector that starts (R263). -/
theorem fetchSector_ok {s : State} {d : DriveNo} {ss : List StorageAnswer} (h0 : s.blk.dataPos = 0)
    (hr : s.blk.rba.toNat < (s.drive d).totalSectors.toNat) (h : s.ext.storageAnswers = .ok :: ss) :
    fetchSector d s = .cont (s.fetched d ss) := by
  have hp : pastEnd s d = false := by simp [pastEnd, hr]
  simp only [fetchSector, if_pos h0, hp, storageRead_ok d s.blk.rba h, Bool.false_eq_true, if_false]
  rfl

/-- The state after `n` sectors read from the RBA on, none of them refused. -/
def State.sectorsRead (s : State) (d : DriveNo) (n : Nat) (ss : List StorageAnswer) (ps : List PushAnswer) : State :=
  let m := (s.drive d).backing
  { s with
    blk := { s.blk with
      dataBuf := if n = 0 then s.blk.dataBuf else Memory.readSector m (s.blk.rba.toNat + n - 1),
      acc := s.blk.acc + readDelay s.params d s.blk.rba n, dataPos := 0,
      sectorPos := s.blk.sectorPos + BitVec.ofNat 16 n, rba := s.blk.rba + BitVec.ofNat 32 n }
    ext := { s.ext with
      storageAnswers := ss, pushAnswers := ps,
      calls := (readCalls d s.blk.dmaChannel m s.blk.rba n).reverse ++ s.ext.calls } }

theorem readSectorStep_ok (d : DriveNo) (s : State) (ss : List StorageAnswer) (ps : List PushAnswer)
    (h0 : s.blk.dataPos = 0) (hr : s.blk.rba.toNat < (s.drive d).totalSectors.toNat)
    (hs : s.ext.storageAnswers = .ok :: ss) (hp : s.ext.pushAnswers = List.replicate 256 .ok ++ ps) :
    readSectorStep d s = .cont (s.sectorsRead d 1 ss ps) := by
  rw [readSectorStep, fetchSector_ok h0 hr hs, Flow.andThen_cont]
  have hw : (s.fetched d ss).wordsLeft = 256 := by simp [State.wordsLeft, State.fetched, h0]
  rw [hw, pushWords_taken 256 (s.fetched d ss) ps hp (by simp [State.fetched, h0]), Flow.andThen_cont]
  simp [State.pushed, State.sectorDone, State.sectorsRead, State.fetched, h0, readCalls, readDelay, List.take_of_length_le]

/-- A run of sectors read (R263). -/
theorem eachSector_read (d : DriveNo) (n : Nat) (s : State) (ss : List StorageAnswer) (ps : List PushAnswer)
    (h0 : s.blk.dataPos = 0) (hr : s.blk.rba.toNat + n ≤ (s.drive d).totalSectors.toNat)
    (hs : s.ext.storageAnswers = List.replicate n .ok ++ ss) (hp : s.ext.pushAnswers = List.replicate (256 * n) .ok ++ ps) :
    eachSector (readSectorStep d) n s = .cont (s.sectorsRead d n ss ps) := by
  induction n generalizing s with
  | zero =>
    obtain rfl : s.ext.storageAnswers = ss := hs
    obtain rfl : s.ext.pushAnswers = ps := hp
    apply congrArg Flow.cont
    have hb : s.blk = { s.blk with dataPos := 0 } := by rw [← h0]
    apply State.ext_eq <;> simp [State.sectorsRead, readCalls, readDelay]
    exact hb
  | succ n ih =>
    have ht := (s.drive d).totalSectors.isLt
    have h1 : (s.blk.rba + 1#32).toNat = s.blk.rba.toNat + 1 := toNat_add_one _ (by omega)
    rw [eachSector, readSectorStep_ok d s (List.replicate n .ok ++ ss) (List.replicate (256 * n) .ok ++ ps) h0 (by omega)
      (by rw [hs]; rfl) (by rw [hp, Nat.mul_add, Nat.add_comm, ← List.replicate_append_replicate, List.append_assoc]), Flow.andThen_cont]
    have hd : ∀ (b : Block) (e : External) (i : DriveNo), State.drive { s with blk := b, ext := e } i = s.drive i := by
      intro b e i
      cases i <;> rfl
    rw [ih _ rfl (by simp only [State.sectorsRead, hd]; rw [h1]; omega) rfl rfl]
    apply congrArg Flow.cont
    cases n with
    | zero => simp [State.sectorsRead, readCalls, readDelay]
    | succ n =>
      have e : s.blk.rba.toNat + 1 + (n + 1) - 1 = s.blk.rba.toNat + (n + 1 + 1) - 1 := by omega
      simp only [State.sectorsRead, hd, h1, e, readCalls, readDelay, Nat.add_one_ne_zero, if_false, ofNat_succ_add]
      simp [Nat.add_assoc]

/-- A run of sectors read, and the word of the next one at which the DMA engine refuses (R232). -/
theorem readSectorStep_refused (d : DriveNo) (s : State) (r : Nat) (ss : List StorageAnswer) (ps : List PushAnswer)
    (h0 : s.blk.dataPos = 0) (hr : s.blk.rba.toNat < (s.drive d).totalSectors.toNat) (h256 : r < 256)
    (hs : s.ext.storageAnswers = .ok :: ss) (hp : s.ext.pushAnswers = List.replicate r .ok ++ .noData :: ps) :
    readSectorStep d s = .done (State.suspend
      { (s.fetched d ss).pushed r ps with ext := { ((s.fetched d ss).pushed r ps).ext with
          calls := .dmaPush (s.fetched d ss).blk.dmaChannel ((s.fetched d ss).blk.dataBuf.toList.getD r 0) .noData ::
            ((s.fetched d ss).pushed r ps).ext.calls } }) := by
  rw [readSectorStep, fetchSector_ok h0 hr hs, Flow.andThen_cont]
  have hw : (s.fetched d ss).wordsLeft = 256 := by simp [State.wordsLeft, State.fetched, h0]
  have h0' : (s.fetched d ss).blk.dataPos = 0 := by simp [State.fetched, h0]
  have h := pushWords_refused r 256 (s.fetched d ss) ps h256 hp (by omega)
  rw [h0', Nat.zero_add] at h
  rw [hw, h, Flow.andThen_done]

/-- A sector that starts past the end of the drive (R217). -/
theorem readSectorStep_pastEnd {d : DriveNo} {s : State} (h0 : s.blk.dataPos = 0)
    (hr : (s.drive d).totalSectors.toNat ≤ s.blk.rba.toNat) : readSectorStep d s = .fatal .pastEndOfDrive s := by
  have hp : pastEnd s d = true := by simp [pastEnd, hr]
  rw [readSectorStep, fetchSector, if_pos h0, if_pos hp, Flow.andThen_fatal]

/-- A sector that storage fails to read (R238). -/
theorem readSectorStep_failed {d : DriveNo} {s : State} {ss : List StorageAnswer} {found : List Byte}
    (h0 : s.blk.dataPos = 0) (hr : s.blk.rba.toNat < (s.drive d).totalSectors.toNat)
    (hs : s.ext.storageAnswers = .fail found :: ss) :
    readSectorStep d s = .done (State.defectiveBlock { s with ext := { s.ext with
      storageAnswers := ss, calls := .storageRead d s.blk.rba (.fail found) :: s.ext.calls } }) := by
  have hp : pastEnd s d = false := by simp [pastEnd, hr]
  simp only [readSectorStep, fetchSector, if_pos h0, hp, storageRead_fail d s.blk.rba hs, Bool.false_eq_true, if_false,
    Flow.andThen_done]

/-- The rest of a sector in flight, pushed without a fetch (R233). -/
theorem readSectorStep_resumed {d : DriveNo} {s : State} {ps : List PushAnswer} (h0 : 0 < s.blk.dataPos)
    (h1 : s.blk.dataPos < 256) (hp : s.ext.pushAnswers = List.replicate (256 - s.blk.dataPos) .ok ++ ps) :
    readSectorStep d s = .cont (s.pushed (256 - s.blk.dataPos) ps).sectorDone := by
  rw [readSectorStep, fetchSector, if_neg (by omega), Flow.andThen_cont, State.wordsLeft,
    pushWords_taken _ s ps hp (by omega), Flow.andThen_cont]

/-- The state in which the DMA engine, after `r` words of the data buffer from the cursor on, has refused the next (R232). -/
def State.refusedAfter (s : State) (r : Nat) (ps : List PushAnswer) : State :=
  State.suspend { s.pushed r ps with ext := { (s.pushed r ps).ext with
    calls := .dmaPush s.blk.dmaChannel (s.blk.dataBuf.toList.getD (s.blk.dataPos + r) 0) .noData ::
      (s.pushed r ps).ext.calls } }

/-- A sector in flight refused again (R232, R233). -/
theorem readSectorStep_refusedAgain {d : DriveNo} {s : State} {r : Nat} {ps : List PushAnswer} (h0 : 0 < s.blk.dataPos)
    (h1 : s.blk.dataPos + r < 256) (hp : s.ext.pushAnswers = List.replicate r .ok ++ .noData :: ps) :
    readSectorStep d s = .done (s.refusedAfter r ps) := by
  rw [readSectorStep, fetchSector, if_neg (by omega), Flow.andThen_cont, State.wordsLeft,
    pushWords_refused r _ s ps (by omega) hp (by omega), Flow.andThen_done, State.refusedAfter]

/-! Sectors of a Write. -/

theorem overlay_full (ws : List Word) (w v : Sector) (h : 256 ≤ ws.length) : overlay ws w = overlay ws v := by
  apply Vector.ext
  intro i hi
  rw [overlay_getElem _ _ _ hi, overlay_getElem _ _ _ hi]
  have : i < ws.length := by omega
  simp [List.getD, this]

theorem overlay_take (ws : List Word) (w : Sector) : overlay (ws.take 256) w = overlay ws w := by
  apply Vector.ext
  intro i hi
  rw [overlay_getElem _ _ _ hi, overlay_getElem _ _ _ hi]
  simp [List.getD, hi]

/-- The words of a sector, its first `p` already in the data buffer. -/
theorem overlay_pulled (ws : List Word) (w : Sector) (p : Nat) (h : ws.take p = w.toList.take p) :
    overlay (w.toList.take p ++ ws.drop p) w = overlay ws w := by rw [← h, List.take_append_drop]

/-- The state after `n` sectors written from the RBA on, none of them refused. -/
def State.sectorsWritten (s : State) (d : DriveNo) (n : Nat) (ws : List Word) (ss : List StorageAnswer)
    (ps : List PullAnswer) : State :=
  State.setBacking { s with
    blk := { s.blk with
      dataBuf := if n = 0 then s.blk.dataBuf else sectorOf (ws.drop (256 * (n - 1))),
      acc := s.blk.acc + writeDelay s.params d s.blk.rba n, dataPos := if n = 0 then s.blk.dataPos else 0,
      sectorPos := s.blk.sectorPos + BitVec.ofNat 16 n, rba := s.blk.rba + BitVec.ofNat 32 n }
    ext := { s.ext with
      storageAnswers := ss, pullAnswers := ps,
      calls := (writeCalls d s.blk.dmaChannel s.blk.rba ws s.blk.dataPos n).reverse ++ s.ext.calls } } d
    (storeWords (s.drive d).backing s.blk.rba.toNat ws n)

theorem State.drive_blk_ext (s : State) (b : Block) (e : External) (i : DriveNo) :
    State.drive { s with blk := b, ext := e } i = s.drive i := by cases i <;> rfl

theorem storeSector_ok {d : DriveNo} {s : State} {ss : List StorageAnswer}
    (hr : s.blk.rba.toNat < (s.drive d).totalSectors.toNat) (hs : s.ext.storageAnswers = .ok :: ss) :
    storeSector d s = .cont (State.setBacking { s with
      blk := { s.blk with acc := s.blk.acc + (Config.writeTime d s.blk.rba 1 + s.params.tXfer) }
      ext := { s.ext with storageAnswers := ss, calls := .storageWrite d s.blk.rba .ok :: s.ext.calls } } d
      (Memory.writeSector (s.drive d).backing s.blk.rba.toNat s.blk.dataBuf)) := by
  have hp : pastEnd s d = false := by simp [pastEnd, hr]
  simp only [storeSector, hp, storageWrite_ok d s.blk.rba s.blk.dataBuf hs, Bool.false_eq_true, if_false]
  cases d <;> rfl

/-- The state with the data buffer filled by the words `ws`, those from the cursor on pulled. -/
def State.filled (s : State) (ws : List Word) (ps : List PullAnswer) : State :=
  { s with
    blk := { s.blk with dataBuf := sectorOf ws, dataPos := 256 }
    ext := { s.ext with
      pullAnswers := ps,
      calls := ((ws.drop s.blk.dataPos).map fun x => Call.dmaPull s.blk.dmaChannel (.word x)).reverse ++ s.ext.calls } }

/-- The words of a sector pulled, its first words already in the data buffer. -/
theorem State.pulled_rest (s : State) (ws : List Word) (ps : List PullAnswer) (hp : s.blk.dataPos ≤ 256)
    (hl : ws.length = 256) (ht : ws.take s.blk.dataPos = s.blk.dataBuf.toList.take s.blk.dataPos) :
    s.pulled (ws.drop s.blk.dataPos) ps = s.filled ws ps := by
  have e : s.blk.dataPos + (ws.length - s.blk.dataPos) = 256 := by omega
  have o : overlay ws s.blk.dataBuf = sectorOf ws := overlay_full _ _ _ (by omega)
  simp only [State.pulled, State.filled, overlay_pulled _ _ _ ht, List.length_drop, e, o]

/-- The words of a sector pulled, and the store that follows (R272). -/
theorem writeSectorStep_filled (d : DriveNo) (s : State) (ws : List Word) (ps : List PullAnswer)
    (hp : s.blk.dataPos ≤ 256) (hl : ws.length = 256) (ht : ws.take s.blk.dataPos = s.blk.dataBuf.toList.take s.blk.dataPos)
    (hq : s.ext.pullAnswers = (ws.drop s.blk.dataPos).map PullAnswer.word ++ ps) :
    writeSectorStep d s = (storeSector d (s.filled ws ps)).andThen fun s2 => .cont s2.sectorDone := by
  have hw : s.wordsLeft = (ws.drop s.blk.dataPos).length := by simp [State.wordsLeft, hl]
  rw [writeSectorStep, hw, pullWords_given _ s ps hq (by simp; omega), Flow.andThen_cont, s.pulled_rest ws ps hp hl ht]

/-- A filled sector past the end of the drive (R217). -/
theorem storeSector_pastEnd {d : DriveNo} {s : State} (hr : (s.drive d).totalSectors.toNat ≤ s.blk.rba.toNat) :
    storeSector d s = .fatal .pastEndOfDrive s := by
  have hp : pastEnd s d = true := by simp [pastEnd, hr]
  rw [storeSector, if_pos hp]

/-- A filled sector that storage fails to write (R238). -/
theorem storeSector_failed {d : DriveNo} {s : State} {ss : List StorageAnswer} {found : List Byte}
    (hr : s.blk.rba.toNat < (s.drive d).totalSectors.toNat) (hs : s.ext.storageAnswers = .fail found :: ss) :
    storeSector d s = .done (State.defectiveBlock (State.setBacking { s with ext := { s.ext with
      storageAnswers := ss, calls := .storageWrite d s.blk.rba (.fail found) :: s.ext.calls } } d
      (Memory.store (s.drive d).backing (512 * s.blk.rba.toNat) (found.take 512)))) := by
  have hp : pastEnd s d = false := by simp [pastEnd, hr]
  simp only [storeSector, hp, storageWrite_fail d s.blk.rba s.blk.dataBuf hs, Bool.false_eq_true, if_false]

theorem writeSectorStep_ok (d : DriveNo) (s : State) (ws : List Word) (ss : List StorageAnswer) (ps : List PullAnswer)
    (hp : s.blk.dataPos ≤ 256) (hr : s.blk.rba.toNat < (s.drive d).totalSectors.toNat) (hl : ws.length = 256)
    (ht : ws.take s.blk.dataPos = s.blk.dataBuf.toList.take s.blk.dataPos) (hs : s.ext.storageAnswers = .ok :: ss)
    (hq : s.ext.pullAnswers = (ws.drop s.blk.dataPos).map PullAnswer.word ++ ps) :
    writeSectorStep d s = .cont (s.sectorsWritten d 1 ws ss ps) := by
  rw [writeSectorStep_filled d s ws ps hp hl ht hq,
    storeSector_ok (s := s.filled ws ps) (ss := ss) (by rw [State.filled, State.drive_blk_ext]; exact hr) hs,
    Flow.andThen_cont]
  have hk : ws.take 256 = ws := List.take_of_length_le (by omega)
  cases d <;>
    simp [State.sectorsWritten, State.filled, State.sectorDone, State.setBacking, storeWords, writeCalls, writeDelay, State.drive, hk]

/-- A run of sectors written (R272). -/
theorem eachSector_write (d : DriveNo) (n : Nat) (s : State) (ws : List Word) (ss : List StorageAnswer)
    (ps : List PullAnswer) (hp : s.blk.dataPos ≤ 256) (hn : n = 0 → s.blk.dataPos = 0)
    (hr : s.blk.rba.toNat + n ≤ (s.drive d).totalSectors.toNat) (hl : ws.length = 256 * n)
    (ht : ws.take s.blk.dataPos = s.blk.dataBuf.toList.take s.blk.dataPos)
    (hs : s.ext.storageAnswers = List.replicate n .ok ++ ss)
    (hq : s.ext.pullAnswers = (ws.drop s.blk.dataPos).map PullAnswer.word ++ ps) :
    eachSector (writeSectorStep d) n s = .cont (s.sectorsWritten d n ws ss ps) := by
  induction n generalizing s ws with
  | zero =>
    obtain rfl : ws = [] := List.eq_nil_of_length_eq_zero hl
    obtain rfl : s.ext.storageAnswers = ss := hs
    obtain rfl : s.ext.pullAnswers = ps := by simpa using hq
    apply congrArg Flow.cont
    cases d <;> simp [State.sectorsWritten, State.setBacking, writeCalls, writeDelay, storeWords, State.drive]
  | succ n ih =>
    have htot := (s.drive d).totalSectors.isLt
    have h1 : (s.blk.rba + 1#32).toNat = s.blk.rba.toNat + 1 := toNat_add_one _ (by omega)
    have hsplit : ws.drop s.blk.dataPos = (ws.take 256).drop s.blk.dataPos ++ ws.drop 256 := by
      have h := List.drop_append_of_le_length (l₁ := ws.take 256) (l₂ := ws.drop 256) (i := s.blk.dataPos) (by simp; omega)
      rwa [List.take_append_drop] at h
    have hstep := writeSectorStep_ok d s (ws.take 256) (List.replicate n .ok ++ ss) ((ws.drop 256).map PullAnswer.word ++ ps)
      hp (by omega) (by simp; omega) (by rw [List.take_take, Nat.min_eq_left (by omega)]; exact ht) (by rw [hs]; rfl)
      (by rw [hq, hsplit, List.map_append, List.append_assoc])
    rw [eachSector, hstep, Flow.andThen_cont]
    have hb : (s.sectorsWritten d 1 (ws.take 256) (List.replicate n .ok ++ ss) ((ws.drop 256).map PullAnswer.word ++ ps)).blk =
        { s.blk with
          dataBuf := sectorOf (ws.take 256), acc := s.blk.acc + (Config.writeTime d s.blk.rba 1 + s.params.tXfer), dataPos := 0,
          sectorPos := s.blk.sectorPos + 1#16, rba := s.blk.rba + 1#32 } := by
      simp [State.sectorsWritten, writeDelay]
    have hdr : (s.sectorsWritten d 1 (ws.take 256) (List.replicate n .ok ++ ss) ((ws.drop 256).map PullAnswer.word ++ ps)).drive d =
        { s.drive d with backing := Memory.writeSector (s.drive d).backing s.blk.rba.toNat (sectorOf (ws.take 256)) } := by
      simp [State.sectorsWritten, State.drive_blk_ext, storeWords]
    rw [ih _ (ws.drop 256) (by rw [hb]; simp) (by rw [hb]; simp) (by rw [hb, hdr]; simp only; rw [h1]; omega)
      (by simp; omega) (by rw [hb]; simp) (by simp [State.sectorsWritten]) (by rw [hb]; simp [State.sectorsWritten])]
    apply congrArg Flow.cont
    have hso : sectorOf (ws.take 256) = sectorOf ws := overlay_take _ _
    have hdd : n ≠ 0 → List.drop (256 * (n - 1)) (List.drop 256 ws) = List.drop (256 * n) ws := by
      intro h0
      rw [List.drop_drop]
      congr 1
      omega
    have hst : storeWords (Memory.writeSector (s.drive d).backing s.blk.rba.toNat (sectorOf (ws.take 256)))
        (s.blk.rba + 1#32).toNat (ws.drop 256) n = storeWords (s.drive d).backing s.blk.rba.toNat ws (n + 1) := by
      rw [storeWords, hso, h1]
    have hc : writeCalls d s.blk.dmaChannel s.blk.rba ws s.blk.dataPos (n + 1) =
        writeCalls d s.blk.dmaChannel s.blk.rba (ws.take 256) s.blk.dataPos 1 ++
          writeCalls d s.blk.dmaChannel (s.blk.rba + 1#32) (ws.drop 256) 0 n := by
      simp [writeCalls, List.take_take]
    apply State.ext_eq
    · simp [State.sectorsWritten]
    · rw [State.sectorsWritten, State.setBacking_blk, hb]
      by_cases h0 : n = 0
      · subst h0
        simp [State.sectorsWritten, writeDelay, hso]
      · simp [State.sectorsWritten, writeDelay, hdd h0, h0, Nat.add_assoc, ofNat_succ_add]
    · rw [State.sectorsWritten, hb, hdr, hst]
      cases d <;> simp [State.sectorsWritten, State.setBacking]
    · rw [State.sectorsWritten, hb, hdr, hst]
      cases d <;> simp [State.sectorsWritten, State.setBacking]
    · rw [State.sectorsWritten, State.setBacking_ext, hb]
      simp only [State.sectorsWritten, State.setBacking_ext, hc, List.reverse_append, List.append_assoc]

/-- The words of the next sector of a Write at which the DMA engine has none (R232). -/
theorem writeSectorStep_missing (d : DriveNo) (s : State) (ws : List Word) (ps : List PullAnswer)
    (hl : s.blk.dataPos + ws.length < 256) (hq : s.ext.pullAnswers = ws.map PullAnswer.word ++ .noData :: ps) :
    writeSectorStep d s = .done (State.suspend
      { s.pulled ws ps with ext := { (s.pulled ws ps).ext with
          calls := .dmaPull s.blk.dmaChannel .noData :: (s.pulled ws ps).ext.calls } }) := by
  have h := pullWords_missing ws s.wordsLeft s ps (by simp only [State.wordsLeft]; omega) hq
    (by simp only [State.wordsLeft]; omega)
  rw [writeSectorStep, h, Flow.andThen_done]

/-! Sectors of the sector buffer. -/

/-- The state after `n` sectors of the sector buffer read from the cursor on, none of them refused (R330). -/
def State.bufferRead (s : State) (n : Nat) (ps : List PushAnswer) : State :=
  { s with
    blk := { s.blk with
      dataBuf := if n = 0 then s.blk.dataBuf else Memory.readSector s.blk.sectorBuf (s.blk.sectorPos.toNat + n - 1),
      dataPos := 0, sectorPos := s.blk.sectorPos + BitVec.ofNat 16 n }
    ext := { s.ext with
      pushAnswers := ps,
      calls := ((sectorWords s.blk.sectorBuf s.blk.sectorPos.toNat n).map fun x =>
        Call.dmaPush s.blk.dmaChannel x .ok).reverse ++ s.ext.calls } }

/-- The state with the data buffer loaded from the sector under the cursor (R330). -/
def State.bufferLoaded (s : State) : State :=
  { s with blk := { s.blk with dataBuf := Memory.readSector s.blk.sectorBuf s.blk.sectorPos.toNat } }

theorem bufferReadStep_ok (s : State) (ps : List PushAnswer) (h0 : s.blk.dataPos = 0)
    (hk : s.blk.sectorPos.toNat < 256) (hp : s.ext.pushAnswers = List.replicate 256 .ok ++ ps) :
    bufferReadStep s = .cont (s.bufferRead 1 ps) := by
  have hl : loadFromBuffer s = .cont s.bufferLoaded := by
    simp [loadFromBuffer, h0, bufferSectors, hk, State.bufferLoaded]
  have hw : s.bufferLoaded.wordsLeft = 256 := by simp [State.wordsLeft, State.bufferLoaded, h0]
  have h := pushWords_taken 256 s.bufferLoaded ps hp (by simp [State.bufferLoaded, h0])
  rw [bufferReadStep, hl, Flow.andThen_cont, hw, h, Flow.andThen_cont]
  simp [State.pushed, State.bufferSectorDone, State.bufferRead, State.bufferLoaded, h0, sectorWords, List.take_of_length_le]

/-- The rest of a sector in flight, pushed without loading it again (R233). -/
theorem bufferReadStep_resumed {s : State} {ps : List PushAnswer} (h0 : 0 < s.blk.dataPos) (h1 : s.blk.dataPos < 256)
    (hp : s.ext.pushAnswers = List.replicate (256 - s.blk.dataPos) .ok ++ ps) :
    bufferReadStep s = .cont (s.pushed (256 - s.blk.dataPos) ps).bufferSectorDone := by
  rw [bufferReadStep, loadFromBuffer, if_neg (by omega), Flow.andThen_cont, State.wordsLeft,
    pushWords_taken _ s ps hp (by omega), Flow.andThen_cont]

/-- A sector in flight refused again (R232, R233). -/
theorem bufferReadStep_refusedAgain {s : State} {r : Nat} {ps : List PushAnswer} (h0 : 0 < s.blk.dataPos)
    (h1 : s.blk.dataPos + r < 256) (hp : s.ext.pushAnswers = List.replicate r .ok ++ .noData :: ps) :
    bufferReadStep s = .done (s.refusedAfter r ps) := by
  rw [bufferReadStep, loadFromBuffer, if_neg (by omega), Flow.andThen_cont, State.wordsLeft,
    pushWords_refused r _ s ps (by omega) hp (by omega), Flow.andThen_done, State.refusedAfter]

/-- The word of a sector that starts at which the DMA engine refuses (R232). -/
theorem bufferReadStep_refused {s : State} {r : Nat} {ps : List PushAnswer} (h0 : s.blk.dataPos = 0)
    (hk : s.blk.sectorPos.toNat < 256) (h1 : r < 256) (hp : s.ext.pushAnswers = List.replicate r .ok ++ .noData :: ps) :
    bufferReadStep s = .done (s.bufferLoaded.refusedAfter r ps) := by
  have hl : loadFromBuffer s = .cont s.bufferLoaded := by
    simp [loadFromBuffer, h0, bufferSectors, hk, State.bufferLoaded]
  have hw : s.bufferLoaded.wordsLeft = 256 := by simp [State.wordsLeft, State.bufferLoaded, h0]
  have hd : s.bufferLoaded.blk.dataPos = 0 := by simp [State.bufferLoaded, h0]
  rw [bufferReadStep, hl, Flow.andThen_cont, hw, pushWords_refused r 256 s.bufferLoaded ps h1 hp (by omega),
    Flow.andThen_done, State.refusedAfter]

/-- A run of sectors of the sector buffer read (R330). -/
theorem eachSector_bufferRead (n : Nat) (s : State) (ps : List PushAnswer) (h0 : s.blk.dataPos = 0)
    (hk : s.blk.sectorPos.toNat + n ≤ 256) (hp : s.ext.pushAnswers = List.replicate (256 * n) .ok ++ ps) :
    eachSector bufferReadStep n s = .cont (s.bufferRead n ps) := by
  induction n generalizing s with
  | zero =>
    obtain rfl : s.ext.pushAnswers = ps := hp
    have hb : s.blk = { s.blk with dataPos := 0 } := by rw [← h0]
    apply congrArg Flow.cont
    apply State.ext_eq <;> simp [State.bufferRead, sectorWords]
    exact hb
  | succ n ih =>
    have h1 : (s.blk.sectorPos + 1#16).toNat = s.blk.sectorPos.toNat + 1 := toNat_add_one _ (by omega)
    rw [eachSector, bufferReadStep_ok s (List.replicate (256 * n) .ok ++ ps) h0 (by omega)
      (by rw [hp, Nat.mul_add, Nat.add_comm, ← List.replicate_append_replicate, List.append_assoc]), Flow.andThen_cont]
    rw [ih _ rfl (by simp only [State.bufferRead]; rw [h1]; omega) rfl]
    apply congrArg Flow.cont
    have e : s.blk.sectorPos.toNat + 1 + n - 1 = s.blk.sectorPos.toNat + (n + 1) - 1 := by omega
    simp only [State.bufferRead, h1, e, ofNat_succ_add, sectorWords]
    cases n with
    | zero => simp [sectorWords]
    | succ n => simp

/-- The state after `n` sectors of the sector buffer written from the cursor on, none of them refused (R326). -/
def State.bufferWritten (s : State) (n : Nat) (ws : List Word) (ps : List PullAnswer) : State :=
  { s with
    blk := { s.blk with
      dataBuf := if n = 0 then s.blk.dataBuf else sectorOf (ws.drop (256 * (n - 1))),
      dataPos := if n = 0 then s.blk.dataPos else 0, sectorPos := s.blk.sectorPos + BitVec.ofNat 16 n,
      sectorBuf := storeWords s.blk.sectorBuf s.blk.sectorPos.toNat ws n }
    ext := { s.ext with
      pullAnswers := ps,
      calls := ((ws.drop s.blk.dataPos).map fun x => Call.dmaPull s.blk.dmaChannel (.word x)).reverse ++ s.ext.calls } }

theorem bufferWriteStep_ok (s : State) (ws : List Word) (ps : List PullAnswer) (hp : s.blk.dataPos < 256)
    (hk : s.blk.sectorPos.toNat < 256) (hl : ws.length = 256)
    (ht : ws.take s.blk.dataPos = s.blk.dataBuf.toList.take s.blk.dataPos)
    (hq : s.ext.pullAnswers = (ws.drop s.blk.dataPos).map PullAnswer.word ++ ps) :
    bufferWriteStep s = .cont (s.bufferWritten 1 ws ps) := by
  have hw : s.wordsLeft = (ws.drop s.blk.dataPos).length := by simp [State.wordsLeft, hl]
  rw [bufferWriteStep, hw, pullWords_given _ s ps hq (by simp; omega), Flow.andThen_cont, s.pulled_rest ws ps (by omega) hl ht]
  have hs : (s.filled ws ps).blk.sectorPos.toNat < bufferSectors := by simpa [State.filled, bufferSectors] using hk
  simp only [saveToBuffer, if_pos hs, Flow.andThen_cont]
  simp [State.filled, State.bufferSectorDone, State.bufferWritten, storeWords]

/-- A run of sectors of the sector buffer written (R326). -/
theorem eachSector_bufferWrite (n : Nat) (s : State) (ws : List Word) (ps : List PullAnswer) (hp : s.blk.dataPos < 256)
    (hn : n = 0 → s.blk.dataPos = 0) (hk : s.blk.sectorPos.toNat + n ≤ 256) (hl : ws.length = 256 * n)
    (ht : ws.take s.blk.dataPos = s.blk.dataBuf.toList.take s.blk.dataPos)
    (hq : s.ext.pullAnswers = (ws.drop s.blk.dataPos).map PullAnswer.word ++ ps) :
    eachSector bufferWriteStep n s = .cont (s.bufferWritten n ws ps) := by
  induction n generalizing s ws with
  | zero =>
    obtain rfl : ws = [] := List.eq_nil_of_length_eq_zero hl
    obtain rfl : s.ext.pullAnswers = ps := by simpa using hq
    apply congrArg Flow.cont
    simp [State.bufferWritten, storeWords]
  | succ n ih =>
    have h1 : (s.blk.sectorPos + 1#16).toNat = s.blk.sectorPos.toNat + 1 := toNat_add_one _ (by omega)
    have hsplit : ws.drop s.blk.dataPos = (ws.take 256).drop s.blk.dataPos ++ ws.drop 256 := by
      have h := List.drop_append_of_le_length (l₁ := ws.take 256) (l₂ := ws.drop 256) (i := s.blk.dataPos) (by simp; omega)
      rwa [List.take_append_drop] at h
    have hstep := bufferWriteStep_ok s (ws.take 256) ((ws.drop 256).map PullAnswer.word ++ ps) hp (by omega) (by simp; omega)
      (by rw [List.take_take, Nat.min_eq_left (by omega)]; exact ht)
      (by rw [hq, hsplit, List.map_append, List.append_assoc])
    rw [eachSector, hstep, Flow.andThen_cont, ih _ (ws.drop 256) (by simp [State.bufferWritten]) (by simp [State.bufferWritten])
      (by simp only [State.bufferWritten]; rw [h1]; omega) (by simp; omega) (by simp [State.bufferWritten])
      (by simp [State.bufferWritten])]
    apply congrArg Flow.cont
    have hso : sectorOf (ws.take 256) = sectorOf ws := overlay_take _ _
    have hdd : n ≠ 0 → List.drop (256 * (n - 1)) (List.drop 256 ws) = List.drop (256 * n) ws := by
      intro h0
      rw [List.drop_drop]
      congr 1
      omega
    apply State.ext_eq
    · simp [State.bufferWritten]
    · simp only [State.bufferWritten, h1, ofNat_succ_add, storeWords, hso]
      by_cases h0 : n = 0
      · subst h0
        simp [hso]
      · simp [h0, hdd h0]
    · simp [State.bufferWritten]
    · simp [State.bufferWritten]
    · simp [State.bufferWritten, hsplit]

/-- The words of the next sector of a Sector-buffer write at which the DMA engine has none (R232). -/
theorem bufferWriteStep_missing (s : State) (ws : List Word) (ps : List PullAnswer)
    (hl : s.blk.dataPos + ws.length < 256) (hq : s.ext.pullAnswers = ws.map PullAnswer.word ++ .noData :: ps) :
    bufferWriteStep s = .done (State.suspend
      { s.pulled ws ps with ext := { (s.pulled ws ps).ext with
          calls := .dmaPull s.blk.dmaChannel .noData :: (s.pulled ws ps).ext.calls } }) := by
  have h := pullWords_missing ws s.wordsLeft s ps (by simp only [State.wordsLeft]; omega) hq
    (by simp only [State.wordsLeft]; omega)
  rw [bufferWriteStep, h, Flow.andThen_done]

/-! What stored words read back as. -/

/-- A run of sectors stored leaves every byte outside it. -/
theorem read_storeWords_outside (n : Nat) (m : Memory) (k : Nat) (ws : List Word) (a : Nat)
    (h : a < 512 * k ∨ 512 * (k + n) ≤ a) : Memory.read (storeWords m k ws n) a = Memory.read m a := by
  induction n generalizing m k ws with
  | zero => rfl
  | succ n ih =>
    rw [storeWords, ih _ _ _ (by omega), Memory.read_writeSector_outside _ _ _ _ (by omega)]

theorem readSector_storeWords_below (n : Nat) (m : Memory) (k j : Nat) (ws : List Word) (h : j < k) :
    Memory.readSector (storeWords m k ws n) j = Memory.readSector m j :=
  Memory.readSector_congr fun x h1 h2 => read_storeWords_outside n m k ws x (by omega)

theorem sectorOf_toList (ws : List Word) (h : 256 ≤ ws.length) : (sectorOf ws).toList = ws.take 256 := by
  apply List.ext_getElem
  · simp; omega
  · intro i h1 h2
    have hi : i < 256 := by simpa using h1
    have hw : i < ws.length := by omega
    simp [sectorOf, List.getD, hw]

/-- The words stored read back, sector by sector (R73). -/
theorem sectorWords_storeWords (n : Nat) (m : Memory) (k : Nat) (ws : List Word) (h : ws.length = 256 * n) :
    sectorWords (storeWords m k ws n) k n = ws := by
  induction n generalizing m k ws with
  | zero => rw [List.eq_nil_of_length_eq_zero h]; rfl
  | succ n ih =>
    rw [sectorWords, storeWords, readSector_storeWords_below _ _ _ _ _ (by omega), Memory.readSector_writeSector,
      ih _ _ _ (by simp; omega), sectorOf_toList _ (by omega), List.take_append_drop]

/-- A run of sectors stored keeps the canonical form. -/
theorem wf_storeWords (n : Nat) (m : Memory) (k : Nat) (ws : List Word) (h : Memory.wf m = true) :
    Memory.wf (storeWords m k ws n) = true := by
  induction n generalizing m k ws with
  | zero => exact h
  | succ n ih => exact ih _ _ _ (Memory.wf_writeSector _ _ h)

theorem storeWords_take (n : Nat) (m : Memory) (k : Nat) (ws : List Word) :
    storeWords m k (ws.take (256 * n)) n = storeWords m k ws n := by
  induction n generalizing m k ws with
  | zero => rfl
  | succ n ih =>
    have e : (ws.take (256 * (n + 1))).drop 256 = (ws.drop 256).take (256 * n) := by
      rw [List.drop_take, show 256 * (n + 1) - 256 = 256 * n by omega]
    have o : sectorOf (ws.take (256 * (n + 1))) = sectorOf ws := by
      rw [sectorOf, sectorOf, ← overlay_take, List.take_take, Nat.min_eq_left (by omega), overlay_take]
    rw [storeWords, storeWords, e, o, ih]

theorem writeCalls_take (n : Nat) (d : DriveNo) (channel : BitVec 3) (lba : BitVec 32) (ws : List Word) (p : Nat) :
    writeCalls d channel lba (ws.take (256 * n)) p n = writeCalls d channel lba ws p n := by
  induction n generalizing lba ws p with
  | zero => rfl
  | succ n ih =>
    have e : (ws.take (256 * (n + 1))).drop 256 = (ws.drop 256).take (256 * n) := by
      rw [List.drop_take, show 256 * (n + 1) - 256 = 256 * n by omega]
    rw [writeCalls, writeCalls, e, ih, List.take_take, Nat.min_eq_left (by omega)]

theorem readDelay_succ (p : Params) (d : DriveNo) (lba : BitVec 32) (n : Nat) :
    readDelay p d lba (n + 1) = readDelay p d lba n + (Config.readTime d (lba + BitVec.ofNat 32 n) 1 + p.tXfer) := by
  induction n generalizing lba with
  | zero => simp [readDelay]
  | succ n ih =>
    rw [readDelay, ih, readDelay, ofNat_succ_add]
    omega

/-! The words pushed. -/

theorem pushedWords_append (a b : List Call) : pushedWords (a ++ b) = pushedWords b ++ pushedWords a := by
  simp [pushedWords]

theorem pushedWords_pushes (channel : BitVec 3) (ws : List Word) :
    pushedWords (ws.map fun x => Call.dmaPush channel x .ok).reverse = ws := by
  simp [pushedWords, List.filterMap_map, Function.comp_def]

theorem pushedWords_readCalls (d : DriveNo) (channel : BitVec 3) (m : Memory) (n : Nat) (lba : BitVec 32)
    (h : lba.toNat + n < 2 ^ 32) : pushedWords (readCalls d channel m lba n).reverse = sectorWords m lba.toNat n := by
  induction n generalizing lba with
  | zero => rfl
  | succ n ih =>
    have h1 : (lba + 1#32).toNat = lba.toNat + 1 := toNat_add_one _ (by omega)
    have hi := ih (lba + 1#32) (by omega)
    rw [h1] at hi
    have hp := pushedWords_pushes channel (Memory.readSector m lba.toNat).toList
    rw [readCalls, List.reverse_append, pushedWords_append, hi, List.reverse_cons, pushedWords_append, hp, sectorWords]
    simp [pushedWords]

end Sys2Proof.Machine
end

