-- ==== Sys2Proof/Laws/Frames.lean ====
section
/-! SUPPORT. What the data movement of a firing leaves unchanged, in whatever state it starts and however the external agents
answer: one lemma for each operation. -/

namespace Sys2Proof.Machine

/-- What data movement keeps: every field of the block but its six, the creation arguments, the drive descriptors, the
canonical forms, and the calls made before (R48, R73, R232, R402). -/
structure Moved (s t : State) : Prop where
  params : t.params = s.params
  blk : t.blk = { s.blk with
    dataBuf := t.blk.dataBuf, dataPos := t.blk.dataPos, sectorBuf := t.blk.sectorBuf, rba := t.blk.rba,
    sectorPos := t.blk.sectorPos, acc := t.blk.acc }
  dataPos : s.blk.dataPos ≤ 256 → t.blk.dataPos ≤ 256
  sectorBuf : Memory.wf s.blk.sectorBuf = true → Memory.wf t.blk.sectorBuf = true
  descriptor : ∀ d, (t.drive d).descriptor = (s.drive d).descriptor
  backing : ∀ d, Memory.wf (s.drive d).backing = true → Memory.wf (t.drive d).backing = true
  calls : s.ext.calls <:+ t.ext.calls

theorem Moved.refl (s : State) : Moved s s :=
  ⟨rfl, rfl, id, id, fun _ => rfl, fun _ => id, List.suffix_rfl⟩

theorem Moved.trans {s t u : State} (h : Moved s t) (k : Moved t u) : Moved s u where
  params := k.params.trans h.params
  blk := by
    rw [k.blk, h.blk]
  dataPos := k.dataPos ∘ h.dataPos
  sectorBuf := k.sectorBuf ∘ h.sectorBuf
  descriptor d := (k.descriptor d).trans (h.descriptor d)
  backing d := k.backing d ∘ h.backing d
  calls := h.calls.trans k.calls

/-- A change of the outside alone, that undoes no call. -/
theorem Moved.of_ext {s t : State} (hp : t.params = s.params) (hb : t.blk = s.blk) (h0 : t.drive0 = s.drive0)
    (h1 : t.drive1 = s.drive1) (hc : s.ext.calls <:+ t.ext.calls) : Moved s t := by
  have hd : ∀ d, t.drive d = s.drive d := by
    intro d
    cases d
    · exact h0
    · exact h1
  exact ⟨hp, by rw [hb], by rw [hb]; exact id, by rw [hb]; exact id, fun d => by rw [hd], fun d => by rw [hd]; exact id, hc⟩

theorem dmaPush_moved (s : State) (w : Word) : Moved s (s.dmaPush w).2 :=
  .of_ext rfl rfl rfl rfl (List.suffix_cons ..)

theorem dmaPush_blk (s : State) (w : Word) : (s.dmaPush w).2.blk = s.blk := rfl

theorem dmaPull_moved (s : State) : Moved s s.dmaPull.2 := .of_ext rfl rfl rfl rfl (List.suffix_cons ..)

theorem dmaPull_blk (s : State) : s.dmaPull.2.blk = s.blk := rfl

theorem storageRead_moved (s : State) (d : DriveNo) (lba : BitVec 32) : Moved s (s.storageRead d lba).2 := by
  unfold State.storageRead
  cases s.storageAnswer.1 <;> exact .of_ext rfl rfl rfl rfl (List.suffix_cons ..)

theorem storageRead_frame (s : State) (d : DriveNo) (lba : BitVec 32) :
    (s.storageRead d lba).2.blk = s.blk ∧ ∀ i, (s.storageRead d lba).2.drive i = s.drive i := by
  unfold State.storageRead
  refine ⟨?_, fun i => ?_⟩ <;> cases s.storageAnswer.1 <;> rfl

/-- A change of what a drive holds that keeps the canonical form, after a call. -/
theorem Moved.setBacking {s t : State} (h : Moved s t) (d : DriveNo) (m : Memory)
    (hm : Memory.wf (t.drive d).backing = true → Memory.wf m = true) : Moved s (t.setBacking d m) := by
  refine h.trans ⟨by simp, by simp, by simp, by simp, fun i => ?_, fun i hi => ?_, by simp⟩ <;>
    cases d <;> cases i <;> first | rfl | exact hi | exact hm hi

theorem storageCall_moved (s : State) (c : Call) : Moved s (s.storageAnswer.2.call c) :=
  .of_ext rfl rfl rfl rfl (List.suffix_cons ..)

theorem storageCall_drive (s : State) (c : Call) (d : DriveNo) : (s.storageAnswer.2.call c).drive d = s.drive d := by
  cases d <;> rfl

theorem storageWrite_moved (s : State) (d : DriveNo) (lba : BitVec 32) (w : Sector) : Moved s (s.storageWrite d lba w).2 := by
  unfold State.storageWrite
  cases s.storageAnswer.1 with
  | ok =>
    refine (storageCall_moved s _).setBacking d _ fun h => ?_
    rw [storageCall_drive] at h
    exact Memory.wf_writeSector _ _ h
  | fail found =>
    refine (storageCall_moved s _).setBacking d _ fun h => ?_
    rw [storageCall_drive] at h
    exact Memory.wf_store _ _ h

theorem storageWrite_blk (s : State) (d : DriveNo) (lba : BitVec 32) (w : Sector) : (s.storageWrite d lba w).2.blk = s.blk := by
  unfold State.storageWrite
  cases s.storageAnswer.1 <;> cases d <;> rfl

theorem storageZero_moved (s : State) (d : DriveNo) (first n : Nat) : Moved s (s.storageZero d first n).2 := by
  unfold State.storageZero
  cases s.storageAnswer.1 with
  | ok =>
    refine (storageCall_moved s _).setBacking d _ fun h => ?_
    rw [storageCall_drive] at h
    exact Memory.wf_zero _ _ h
  | fail found =>
    refine (storageCall_moved s _).setBacking d _ fun h => ?_
    rw [storageCall_drive] at h
    exact Memory.wf_store _ _ h

theorem storageZero_blk (s : State) (d : DriveNo) (first n : Nat) : (s.storageZero d first n).2.blk = s.blk := by
  unfold State.storageZero
  cases s.storageAnswer.1 <;> cases d <;> rfl

/-- A change of the block's six fields alone, the cursor and the canonical form kept. -/
theorem Moved.of_blk (s : State) (b : Block)
    (hb : b = { s.blk with
      dataBuf := b.dataBuf, dataPos := b.dataPos, sectorBuf := b.sectorBuf, rba := b.rba, sectorPos := b.sectorPos,
      acc := b.acc })
    (hp : s.blk.dataPos ≤ 256 → b.dataPos ≤ 256)
    (hm : Memory.wf s.blk.sectorBuf = true → Memory.wf b.sectorBuf = true) : Moved s { s with blk := b } :=
  ⟨rfl, hb, hp, hm, fun d => by cases d <;> rfl, fun d h => by cases d <;> exact h, List.suffix_rfl⟩

/-- How a piece of data movement that began in `s` ends: it goes on with `n` more sectors done; or it suspended or met a failed
storage call, with at most `n` of them done; or it raised a fatal fault. -/
def Flow.Moves (s : State) (n : Nat) : Flow → Prop
  | .cont t => Moved s t ∧ t.blk.sectorPos = s.blk.sectorPos + BitVec.ofNat 16 n
  | .done t => ∃ u k, Moved s u ∧ k ≤ n ∧ u.blk.sectorPos = s.blk.sectorPos + BitVec.ofNat 16 k ∧
      (t = u.suspend ∨ t = u.defectiveBlock)
  | .fatal _ t => Moved s t
  | .stuck _ => False

theorem Flow.Moves.after {s t : State} {a b : Nat} {x : Flow} (h1 : Moved s t)
    (h2 : t.blk.sectorPos = s.blk.sectorPos + BitVec.ofNat 16 a) (h : x.Moves t b) : x.Moves s (a + b) := by
  have add : ∀ k, t.blk.sectorPos + BitVec.ofNat 16 k = s.blk.sectorPos + BitVec.ofNat 16 (a + k) := by
    intro k
    rw [h2, BitVec.add_assoc, ← BitVec.ofNat_add]
  cases x with
  | cont u => exact ⟨h1.trans h.1, by rw [h.2, add]⟩
  | done u =>
    obtain ⟨v, k, h3, hk, h4, h5⟩ := h
    exact ⟨v, a + k, h1.trans h3, by omega, by rw [h4, add], h5⟩
  | fatal r u => exact h1.trans h
  | stuck r => exact h

/-- One more step that moves no sector cursor. -/
theorem Flow.Moves.step {s t : State} {n : Nat} {x : Flow} (h1 : Moved s t) (h2 : t.blk.sectorPos = s.blk.sectorPos)
    (h : x.Moves t n) : x.Moves s n := by
  have := Flow.Moves.after (a := 0) h1 (by rw [h2]; exact (BitVec.add_zero _).symm) h
  rwa [Nat.zero_add] at this

theorem Flow.Moves.andThen {s : State} {a b : Nat} {x : Flow} {f : State → Flow} (hx : x.Moves s a)
    (hf : ∀ t, x = .cont t → Moved s t → t.blk.sectorPos = s.blk.sectorPos + BitVec.ofNat 16 a → (f t).Moves t b) :
    (x.andThen f).Moves s (a + b) := by
  cases x with
  | cont t => exact .after hx.1 hx.2 (hf t rfl hx.1 hx.2)
  | done t =>
    obtain ⟨u, k, h1, hk, h2⟩ := hx
    exact ⟨u, k, h1, by omega, h2⟩
  | fatal r t => exact hx
  | stuck r => exact hx

theorem Flow.Moves.cont {s t : State} (h1 : Moved s t) (h2 : t.blk.sectorPos = s.blk.sectorPos) : (Flow.cont t).Moves s 0 :=
  ⟨h1, by rw [h2]; exact (BitVec.add_zero _).symm⟩

theorem Flow.Moves.done {s u t : State} {n : Nat} (h1 : Moved s u) (h2 : u.blk.sectorPos = s.blk.sectorPos)
    (h : t = u.suspend ∨ t = u.defectiveBlock) : (Flow.done t).Moves s n :=
  ⟨u, 0, h1, Nat.zero_le n, by rw [h2]; exact (BitVec.add_zero _).symm, h⟩

theorem pushWords_moves (n : Nat) (s : State) (hn : n ≤ 256 - s.blk.dataPos) : (pushWords n s).Moves s 0 := by
  induction n generalizing s with
  | zero => exact .cont (.refl s) rfl
  | succ n ih =>
    have h := dmaPush_moved s s.blk.dataWord
    have hb := dmaPush_blk s s.blk.dataWord
    rw [pushWords]
    generalize s.dmaPush s.blk.dataWord = x at h hb
    obtain ⟨a, s1⟩ := x
    simp only at h hb
    cases a with
    | noData => exact .done h (by rw [hb]) (.inl rfl)
    | ok =>
      have h1 : Moved s s1.nextWord := h.trans (.of_blk s1 _ rfl (fun _ => by simp only [hb]; omega) id)
      refine .step h1 ?_ (ih _ ?_)
      · simp only [State.nextWord, hb]
      · simp only [State.nextWord, hb]
        omega

theorem pullWords_moves (n : Nat) (s : State) (hn : n ≤ 256 - s.blk.dataPos) : (pullWords n s).Moves s 0 := by
  induction n generalizing s with
  | zero => exact .cont (.refl s) rfl
  | succ n ih =>
    have h := dmaPull_moved s
    have hb := dmaPull_blk s
    rw [pullWords]
    generalize s.dmaPull = x at h hb
    obtain ⟨a, s1⟩ := x
    simp only at h hb
    cases a with
    | noData => exact .done h (by rw [hb]) (.inl rfl)
    | word v =>
      have h1 : Moved s (s1.takeWord v) := h.trans (.of_blk s1 _ rfl (fun _ => by simp only [hb]; omega) id)
      refine .step h1 ?_ (ih _ ?_)
      · simp only [State.takeWord, hb]
      · simp only [State.takeWord, hb]
        omega

/-- The end of a sector, of a drive or of the sector buffer. -/
theorem sectorDone_moves (s : State) : (Flow.cont s.sectorDone).Moves s 1 :=
  ⟨.of_blk s _ rfl (fun _ => Nat.zero_le _) id, rfl⟩

theorem bufferSectorDone_moves (s : State) : (Flow.cont s.bufferSectorDone).Moves s 1 :=
  ⟨.of_blk s _ rfl (fun _ => Nat.zero_le _) id, rfl⟩

theorem fetchSector_moves (d : DriveNo) (s : State) : (fetchSector d s).Moves s 0 := by
  rw [fetchSector]
  split
  · split
    · exact .refl s
    · have h := storageRead_moved s d s.blk.rba
      have hb := (storageRead_frame s d s.blk.rba).1
      generalize s.storageRead d s.blk.rba = x at h hb
      obtain ⟨a, s1⟩ := x
      simp only at h hb
      cases a with
      | none => exact .done h (by rw [hb]) (.inr rfl)
      | some w => exact .cont (h.trans (.of_blk s1 _ rfl id id)) (by simp only [hb])
  · exact .cont (.refl s) rfl

theorem readSectorStep_moves (d : DriveNo) (s : State) : (readSectorStep d s).Moves s 1 :=
  Flow.Moves.andThen (a := 0) (b := 1) (fetchSector_moves d s) fun t _ _ _ =>
    Flow.Moves.andThen (a := 0) (b := 1) (pushWords_moves _ t (Nat.le_refl _)) fun u _ _ _ => sectorDone_moves u

theorem storeSector_moves (d : DriveNo) (s : State) : (storeSector d s).Moves s 0 := by
  rw [storeSector]
  split
  · exact .refl s
  · have h := storageWrite_moved s d s.blk.rba s.blk.dataBuf
    have hb := storageWrite_blk s d s.blk.rba s.blk.dataBuf
    generalize s.storageWrite d s.blk.rba s.blk.dataBuf = x at h hb
    obtain ⟨a, s1⟩ := x
    simp only at h hb
    cases a with
    | false => exact .done h (by rw [hb]) (.inr rfl)
    | true => exact .cont (h.trans (.of_blk s1 _ rfl id id)) (by simp only [hb])

theorem writeSectorStep_moves (d : DriveNo) (s : State) : (writeSectorStep d s).Moves s 1 :=
  Flow.Moves.andThen (a := 0) (b := 1) (pullWords_moves _ s (Nat.le_refl _)) fun t _ _ _ =>
    Flow.Moves.andThen (a := 0) (b := 1) (storeSector_moves d t) fun u _ _ _ => sectorDone_moves u

theorem saveToBuffer_moves (s : State) (h : s.blk.sectorPos.toNat < bufferSectors) : (saveToBuffer s).Moves s 0 := by
  rw [saveToBuffer, if_pos h]
  exact .cont (.of_blk s _ rfl id (Memory.wf_writeSector _ _)) rfl

theorem loadFromBuffer_moves (s : State) (h : s.blk.sectorPos.toNat < bufferSectors) : (loadFromBuffer s).Moves s 0 := by
  simp only [loadFromBuffer, if_pos h]
  split
  · exact .cont (.of_blk s _ rfl id id) rfl
  · exact .cont (.refl s) rfl

theorem bufferReadStep_moves (s : State) (h : s.blk.sectorPos.toNat < bufferSectors) : (bufferReadStep s).Moves s 1 :=
  Flow.Moves.andThen (a := 0) (b := 1) (loadFromBuffer_moves s h) fun t _ _ _ =>
    Flow.Moves.andThen (a := 0) (b := 1) (pushWords_moves _ t (Nat.le_refl _)) fun u _ _ _ => bufferSectorDone_moves u

theorem bufferWriteStep_moves (s : State) (h : s.blk.sectorPos.toNat < bufferSectors) : (bufferWriteStep s).Moves s 1 :=
  Flow.Moves.andThen (a := 0) (b := 1) (pullWords_moves _ s (Nat.le_refl _)) fun t _ _ ht =>
    Flow.Moves.andThen (a := 0) (b := 1) (saveToBuffer_moves t (by rw [ht]; simpa using h)) fun u _ _ _ =>
      bufferSectorDone_moves u

/-- A loop over `n` sectors whose body moves one, with the cursor below the end. -/
theorem eachSector_moves (body : State → Flow) (n : Nat) (s : State)
    (h : ∀ k t, k < n → t.blk.sectorPos = s.blk.sectorPos + BitVec.ofNat 16 k → (body t).Moves t 1) :
    (eachSector body n s).Moves s n := by
  induction n generalizing s with
  | zero => exact .cont (.refl s) rfl
  | succ n ih =>
    rw [eachSector, Nat.add_comm]
    refine Flow.Moves.andThen (a := 1) (b := n) (h 0 s (by omega) (BitVec.add_zero _).symm) fun t _ _ ht => ih t ?_
    intro k u hk hu
    refine h (k + 1) u (by omega) ?_
    rw [hu, ht, BitVec.add_assoc, ← BitVec.ofNat_add, Nat.add_comm]

/-! The pieces that raise no fatal fault. -/

theorem Flow.andThen_not_fatal {x : Flow} {k : State → Flow} (hx : ∀ r t, x ≠ .fatal r t)
    (hk : ∀ s r t, k s ≠ .fatal r t) : ∀ r t, x.andThen k ≠ .fatal r t := by
  intro r t
  cases x with
  | cont s => exact hk s r t
  | done s => simp
  | fatal r' t' => exact absurd rfl (hx r' t')
  | stuck f => simp

theorem pushWords_not_fatal (n : Nat) (s : State) : ∀ r t, pushWords n s ≠ .fatal r t := by
  induction n generalizing s with
  | zero => simp [pushWords]
  | succ n ih =>
    intro r t
    rw [pushWords]
    generalize s.dmaPush s.blk.dataWord = x
    obtain ⟨a, s1⟩ := x
    cases a with
    | noData => simp
    | ok => exact ih _ r t

theorem loadFromBuffer_not_fatal (s : State) : ∀ r t, loadFromBuffer s ≠ .fatal r t := by
  intro r t
  unfold loadFromBuffer
  repeat' split
  all_goals simp

theorem bufferReadStep_not_fatal (s : State) : ∀ r t, bufferReadStep s ≠ .fatal r t :=
  Flow.andThen_not_fatal (loadFromBuffer_not_fatal s) fun _ =>
    Flow.andThen_not_fatal (pushWords_not_fatal _ _) fun _ _ _ h => nomatch h

theorem eachSector_not_fatal {body : State → Flow} (h : ∀ s r t, body s ≠ .fatal r t) (n : Nat) (s : State) :
    ∀ r t, eachSector body n s ≠ .fatal r t := by
  induction n generalizing s with
  | zero => simp [eachSector]
  | succ n ih => exact Flow.andThen_not_fatal (h s) ih

end Sys2Proof.Machine
end

