-- ==== Sys2Proof/Laws/Commands.lean ====
section
/-! SUPPORT. What a data-movement firing of each transfer command is, once its checks have passed (R210, R212, R213, R231). -/

namespace Sys2Proof.Machine

theorem firing_drive {s : State} {d : DriveNo} (h : s.MovesDrive d) (p0 p2 : State → Flow) (body : DriveNo → State → Flow) :
    firing p0 (fun s => validate s fun d => dmaGate s (body d s)) p2 s = (body d s.startFiring).outcome s := by
  rw [firing_runs h.runs]
  simp only [bodyOf]
  rw [validate_present (s := s.startFiring) _ h.drive.target (by simpa using h.drive.present),
    dmaGate_open (s := s.startFiring) _ h.dma]

theorem firing_buffer {s : State} (h : s.MovesBuffer) (p0 p2 body : State → Flow) :
    firing p0 (fun s => adapterOnly s (dmaGate s (body s))) p2 s = (body s.startFiring).outcome s := by
  rw [firing_runs h.runs]
  simp only [bodyOf]
  rw [adapterOnly_adapter (s := s.startFiring) _ h.adapter, dmaGate_open (s := s.startFiring) _ h.dma]

/-- The data movement of Read (R262 to R265). -/
theorem exec_read_moving {s : State} {d : DriveNo} (h : s.MovesDrive d) (four : Bool) (dev : BitVec 3) :
    exec (.read four dev) s = (((eachSector (readSectorStep d) s.sectorsLeft s.startFiring).andThen fun s1 =>
      .done (s1.endPhase .p2 s1.blk.acc))).outcome s :=
  firing_drive h transferSetup driveCompletion fun d s =>
    (eachSector (readSectorStep d) s.sectorsLeft s).andThen fun s1 => .done (s1.endPhase .p2 s1.blk.acc)

/-- The data movement of Write and Write-Verify (R272, R274). -/
theorem exec_write_moving {s : State} {d : DriveNo} (h : s.MovesDrive d) (four : Bool) (dev : BitVec 3) (i : Instr)
    (hi : i ∈ [Instr.write four dev, .writeVerify four dev]) :
    exec i s = (((eachSector (writeSectorStep d) s.sectorsLeft s.startFiring).andThen fun s1 =>
      .done (s1.endPhase .p2 s1.blk.acc))).outcome s := by
  simp only [List.mem_cons, List.not_mem_nil, or_false] at hi
  rcases hi with rfl | rfl <;>
    exact firing_drive h transferSetup driveCompletion fun d s =>
      (eachSector (writeSectorStep d) s.sectorsLeft s).andThen fun s1 => .done (s1.endPhase .p2 s1.blk.acc)

/-- The data movement of Sector-buffer write (R326). -/
theorem exec_sectorBufferWrite_moving {s : State} (h : s.MovesBuffer) (four : Bool) (dev : BitVec 3) :
    exec (.sectorBufferWrite four dev) s = (((eachSector bufferWriteStep s.sectorsLeft s.startFiring).andThen fun s1 =>
      .done (s1.endPhase .p2 s1.params.tBase))).outcome s :=
  firing_buffer h bufferSetup bufferCompletion fun s =>
    (eachSector bufferWriteStep s.sectorsLeft s).andThen fun s1 => .done (s1.endPhase .p2 s1.params.tBase)

/-- The data movement of Sector-buffer read (R330). -/
theorem exec_sectorBufferRead_moving {s : State} (h : s.MovesBuffer) (four : Bool) (dev : BitVec 3) :
    exec (.sectorBufferRead four dev) s = (((eachSector bufferReadStep s.sectorsLeft s.startFiring).andThen fun s1 =>
      .done (s1.endPhase .p2 s1.params.tBase))).outcome s :=
  firing_buffer h bufferSetup bufferCompletion fun s =>
    (eachSector bufferReadStep s.sectorsLeft s).andThen fun s1 => .done (s1.endPhase .p2 s1.params.tBase)

/-- The cursor at the end of a transfer. -/
theorem add_sectorsLeft (a b : BitVec 16) (h : a.toNat ≤ b.toNat) : a + BitVec.ofNat 16 (b.toNat - a.toNat) = b := by
  apply BitVec.eq_of_toNat_eq
  rw [toNat_add_ofNat _ _ (by omega)]
  omega

end Sys2Proof.Machine
end

