-- ==== Sys2Proof/Laws/Decode.lean ====
section
/-! SUPPORT. What the decoder reads: every port descriptor and every attention byte is a row, and an attention byte's row does
what the byte does (R119, R160). -/

namespace Sys2Proof.Machine

/-- Every port descriptor is a row (R119). -/
theorem decode_port_total (desc : BitVec 5) (data : Word) : ∃ i, decode (.port desc data) = .ok i := by
  have h0 : ∀ d : BitVec 5, (decodePort d 0).toBool = true := by decide
  have h : (decodePort desc data).toBool = (decodePort desc 0).toBool := by
    unfold decodePort
    split <;> rfl
  rw [h0 desc] at h
  cases e : decodePort desc data with
  | ok i => exact ⟨i, e⟩
  | error r => simp [e, Except.toBool] at h

set_option maxRecDepth 4000 in
/-- Every attention byte is a row (R119). -/
theorem decode_attn_total (b : Byte) : ∃ i, decode (.attn b) = .ok i := by
  have h : ∀ b : BitVec 8, (decodeAttn b).toBool = true := by decide
  have hb := h b
  cases e : decodeAttn b with
  | ok i => exact ⟨i, e⟩
  | error r => simp [e, Except.toBool] at hb

/-- The row of an attention byte does what the byte does (R160 to R166). -/
theorem decode_attn_exec {v : Byte} {i : Instr} (s : State) (h : decode (.attn v) = .ok i) :
    exec i s = hostWrite s (attention v) := by
  simp only [decode, decodeAttn] at h
  by_cases hi : s.blk.ioEnabled = true
  · rw [show hostWrite s (attention v) = attention v s from if_pos hi]
    split at h <;> rename_i hd <;> try (split at h <;> rename_i hr)
    all_goals first | contradiction | skip
    all_goals (obtain rfl := Except.ok.inj h)
    all_goals first
      | (simp only [attention, targetOf, hd, attentionRequest, hr]; exact if_pos hi)
      | (simp only [attention, targetOf, hd]; exact if_pos hi)
  · rw [show hostWrite s (attention v) = .next s from if_neg hi]
    split at h <;> rename_i hd <;> try (split at h <;> rename_i hr)
    all_goals first | contradiction | skip
    all_goals (obtain rfl := Except.ok.inj h)
    all_goals exact if_neg hi

end Sys2Proof.Machine
end

