-- ==== Sys2Proof/Laws/PerInstr.lean ====
section
/-! SUPPORT. A property of every instruction as syntax, one lemma a constructor: its code has the format, and in the bits that
the opcode table fixes the value, of its row of spec/opcode_table.json. -/

namespace Sys2Proof.Laws

/-- The formats of the opcode table. -/
inductive Format where
  | port
  | attn
  | cmd0
  | cfgop
deriving DecidableEq, Repr

/-- The format of a code, and the number that the table matches its row against. -/
def Format.ofCode : Code → Format × Nat
  | .port desc _ => (.port, desc.toNat)
  | .attn b => (.attn, b.toNat)
  | .cmd0 w => (.cmd0, w.toNat)
  | .cfgop op _ => (.cfgop, op.toNat)

/-- The code `c` has the format, and under the mask the value, of a row. -/
def matchesRow (c : Code) (f : Format) (mask value : Nat) : Prop :=
  (Format.ofCode c).1 = f ∧ (Format.ofCode c).2 &&& mask = value

/-- The format, mask and match value of an instruction's row, as spec/opcode_table.json gives them. -/
def rowOf : Instr → Format × Nat × Nat
  | .rdSir => (.port, 0x1F, 0x08)
  | .wrCir _ => (.port, 0x1F, 0x18)
  | .rdStatus => (.port, 0x1F, 0x02)
  | .wrCtrl _ => (.port, 0x1F, 0x12)
  | .rdIsr => (.port, 0x1F, 0x03)
  | .wrAttn _ => (.port, 0x1F, 0x13)
  | .unwiredRB0 => (.port, 0x1F, 0x00)
  | .unwiredRB1 => (.port, 0x1F, 0x01)
  | .unwiredRB4 => (.port, 0x1F, 0x04)
  | .unwiredRB5 => (.port, 0x1F, 0x05)
  | .unwiredRB6 => (.port, 0x1F, 0x06)
  | .unwiredRB7 => (.port, 0x1F, 0x07)
  | .unwiredRW1 => (.port, 0x1F, 0x09)
  | .unwiredRW2 => (.port, 0x1F, 0x0A)
  | .unwiredRW3 => (.port, 0x1F, 0x0B)
  | .unwiredRW4 => (.port, 0x1F, 0x0C)
  | .unwiredRW5 => (.port, 0x1F, 0x0D)
  | .unwiredRW6 => (.port, 0x1F, 0x0E)
  | .unwiredRW7 => (.port, 0x1F, 0x0F)
  | .unwiredWB0 _ => (.port, 0x1F, 0x10)
  | .unwiredWB1 _ => (.port, 0x1F, 0x11)
  | .unwiredWB4 _ => (.port, 0x1F, 0x14)
  | .unwiredWB5 _ => (.port, 0x1F, 0x15)
  | .unwiredWB6 _ => (.port, 0x1F, 0x16)
  | .unwiredWB7 _ => (.port, 0x1F, 0x17)
  | .unwiredWW1 _ => (.port, 0x1F, 0x19)
  | .unwiredWW2 _ => (.port, 0x1F, 0x1A)
  | .unwiredWW3 _ => (.port, 0x1F, 0x1B)
  | .unwiredWW4 _ => (.port, 0x1F, 0x1C)
  | .unwiredWW5 _ => (.port, 0x1F, 0x1D)
  | .unwiredWW6 _ => (.port, 0x1F, 0x1E)
  | .unwiredWW7 _ => (.port, 0x1F, 0x1F)
  | .attnCmdreqAD => (.attn, 0xEF, 0xE1)
  | .attnEoiAD => (.attn, 0xEF, 0xE2)
  | .attnCmdreqD0 => (.attn, 0xEF, 0x01)
  | .attnEoiD0 => (.attn, 0xEF, 0x02)
  | .attnCmdreqD1 => (.attn, 0xEF, 0x21)
  | .attnEoiD1 => (.attn, 0xEF, 0x22)
  | .attnResetAD => (.attn, 0xEF, 0xE4)
  | .attnBaddev2 _ => (.attn, 0xE0, 0x40)
  | .attnBaddev3 _ => (.attn, 0xE0, 0x60)
  | .attnBaddev4 _ => (.attn, 0xE0, 0x80)
  | .attnBaddev5 _ => (.attn, 0xE0, 0xA0)
  | .attnBaddev6 _ => (.attn, 0xE0, 0xC0)
  | .attnBadreqAD_0 => (.attn, 0xEF, 0xE0)
  | .attnBadreqAD_3 => (.attn, 0xEF, 0xE3)
  | .attnBadreqAD_5 => (.attn, 0xEF, 0xE5)
  | .attnBadreqAD_6 => (.attn, 0xEF, 0xE6)
  | .attnBadreqAD_7 => (.attn, 0xEF, 0xE7)
  | .attnBadreqAD_8 => (.attn, 0xEF, 0xE8)
  | .attnBadreqAD_9 => (.attn, 0xEF, 0xE9)
  | .attnBadreqAD_A => (.attn, 0xEF, 0xEA)
  | .attnBadreqAD_B => (.attn, 0xEF, 0xEB)
  | .attnBadreqAD_C => (.attn, 0xEF, 0xEC)
  | .attnBadreqAD_D => (.attn, 0xEF, 0xED)
  | .attnBadreqAD_E => (.attn, 0xEF, 0xEE)
  | .attnBadreqAD_F => (.attn, 0xEF, 0xEF)
  | .attnBadreqD0_0 => (.attn, 0xEF, 0x00)
  | .attnBadreqD0_3 => (.attn, 0xEF, 0x03)
  | .attnBadreqD0_4 => (.attn, 0xEF, 0x04)
  | .attnBadreqD0_5 => (.attn, 0xEF, 0x05)
  | .attnBadreqD0_6 => (.attn, 0xEF, 0x06)
  | .attnBadreqD0_7 => (.attn, 0xEF, 0x07)
  | .attnBadreqD0_8 => (.attn, 0xEF, 0x08)
  | .attnBadreqD0_9 => (.attn, 0xEF, 0x09)
  | .attnBadreqD0_A => (.attn, 0xEF, 0x0A)
  | .attnBadreqD0_B => (.attn, 0xEF, 0x0B)
  | .attnBadreqD0_C => (.attn, 0xEF, 0x0C)
  | .attnBadreqD0_D => (.attn, 0xEF, 0x0D)
  | .attnBadreqD0_E => (.attn, 0xEF, 0x0E)
  | .attnBadreqD0_F => (.attn, 0xEF, 0x0F)
  | .attnBadreqD1_0 => (.attn, 0xEF, 0x20)
  | .attnBadreqD1_3 => (.attn, 0xEF, 0x23)
  | .attnBadreqD1_4 => (.attn, 0xEF, 0x24)
  | .attnBadreqD1_5 => (.attn, 0xEF, 0x25)
  | .attnBadreqD1_6 => (.attn, 0xEF, 0x26)
  | .attnBadreqD1_7 => (.attn, 0xEF, 0x27)
  | .attnBadreqD1_8 => (.attn, 0xEF, 0x28)
  | .attnBadreqD1_9 => (.attn, 0xEF, 0x29)
  | .attnBadreqD1_A => (.attn, 0xEF, 0x2A)
  | .attnBadreqD1_B => (.attn, 0xEF, 0x2B)
  | .attnBadreqD1_C => (.attn, 0xEF, 0x2C)
  | .attnBadreqD1_D => (.attn, 0xEF, 0x2D)
  | .attnBadreqD1_E => (.attn, 0xEF, 0x2E)
  | .attnBadreqD1_F => (.attn, 0xEF, 0x2F)
  | .read _ _ => (.cmd0, 0x1F, 0x01)
  | .write _ _ => (.cmd0, 0x1F, 0x02)
  | .readVerify _ _ => (.cmd0, 0x1F, 0x03)
  | .writeVerify _ _ => (.cmd0, 0x1F, 0x04)
  | .seek _ _ => (.cmd0, 0x1F, 0x05)
  | .parkHeads _ _ => (.cmd0, 0x1F, 0x06)
  | .getDeviceStatus _ _ => (.cmd0, 0x1F, 0x08)
  | .getDeviceConfigAdapter _ => (.cmd0, 0xFF, 0xE9)
  | .getDeviceConfigDrive0 _ => (.cmd0, 0xFF, 0x09)
  | .getDeviceConfigDrive1 _ => (.cmd0, 0xFF, 0x29)
  | .getPositionInfo _ _ => (.cmd0, 0x1F, 0x0A)
  | .sectorBufferWrite _ _ => (.cmd0, 0x1F, 0x10)
  | .sectorBufferRead _ _ => (.cmd0, 0x1F, 0x11)
  | .diagnostic _ _ => (.cmd0, 0x1F, 0x12)
  | .formatUnit _ _ => (.cmd0, 0x1F, 0x16)
  | .formatPrepare _ _ => (.cmd0, 0x1F, 0x17)
  | .unrecognized00 _ _ => (.cmd0, 0x1F, 0x00)
  | .unrecognized07 _ _ => (.cmd0, 0x1F, 0x07)
  | .unrecognized0B _ _ => (.cmd0, 0x1F, 0x0B)
  | .unrecognized0C _ _ => (.cmd0, 0x1F, 0x0C)
  | .unrecognized0D _ _ => (.cmd0, 0x1F, 0x0D)
  | .unrecognized0E _ _ => (.cmd0, 0x1F, 0x0E)
  | .unrecognized0F _ _ => (.cmd0, 0x1F, 0x0F)
  | .unrecognized13 _ _ => (.cmd0, 0x1F, 0x13)
  | .unrecognized14 _ _ => (.cmd0, 0x1F, 0x14)
  | .unrecognized15 _ _ => (.cmd0, 0x1F, 0x15)
  | .unrecognized18 _ _ => (.cmd0, 0x1F, 0x18)
  | .unrecognized19 _ _ => (.cmd0, 0x1F, 0x19)
  | .unrecognized1A _ _ => (.cmd0, 0x1F, 0x1A)
  | .unrecognized1B _ _ => (.cmd0, 0x1F, 0x1B)
  | .unrecognized1C _ _ => (.cmd0, 0x1F, 0x1C)
  | .unrecognized1D _ _ => (.cmd0, 0x1F, 0x1D)
  | .unrecognized1E _ _ => (.cmd0, 0x1F, 0x1E)
  | .unrecognized1F _ _ => (.cmd0, 0x1F, 0x1F)
  | .cfgRead _ => (.cfgop, 0x18, 0x00)
  | .cfgWriteIgnored _ _ => (.cfgop, 0x1E, 0x08)
  | .cfgWrite23 _ _ => (.cfgop, 0x1E, 0x0A)
  | .cfgWrite47 _ _ => (.cfgop, 0x1C, 0x0C)
  | .cfgFeedback => (.cfgop, 0x1F, 0x10)
  | .cfgReset => (.cfgop, 0x1F, 0x18)

/-- The code of a well-formed instruction is a code of its row. -/
def FormatOfCode.Statement (i : Instr) : Prop :=
  i.wf = true → matchesRow (encode i) (rowOf i).1 (rowOf i).2.1 (rowOf i).2.2

/-- The fixed bits of an attention byte (R102). -/
theorem matches_attn (dev : BitVec 3) (req : BitVec 4) :
    (attnByte dev req).toNat &&& 0xE0 = 32 * dev.toNat ∧
      (attnByte dev req).toNat &&& 0xEF = 32 * dev.toNat + req.toNat := by
  revert dev req
  decide

set_option maxRecDepth 4000 in
/-- The fixed bits of a command word (R107). -/
theorem matches_cmd0 (four : Bool) (dev : BitVec 3) (code : BitVec 5) :
    (cmd0Word four dev code).toNat &&& 0x1F = code.toNat ∧
      (cmd0Word four dev code).toNat &&& 0xFF = 32 * dev.toNat + code.toNat := by
  revert four dev code
  decide

theorem FormatOfCode.rdSir : FormatOfCode.Statement .rdSir := fun _ => ⟨rfl, rfl⟩

theorem FormatOfCode.wrCir (v : Word) : FormatOfCode.Statement (.wrCir v) :=
  fun _ => ⟨rfl, (by decide : (0x18#5).toNat &&& 0x1F = 0x18)⟩

theorem FormatOfCode.rdStatus : FormatOfCode.Statement .rdStatus := fun _ => ⟨rfl, rfl⟩

theorem FormatOfCode.wrCtrl (v : Byte) : FormatOfCode.Statement (.wrCtrl v) :=
  fun _ => ⟨rfl, (by decide : (0x12#5).toNat &&& 0x1F = 0x12)⟩

theorem FormatOfCode.rdIsr : FormatOfCode.Statement .rdIsr := fun _ => ⟨rfl, rfl⟩

theorem FormatOfCode.wrAttn (v : Byte) : FormatOfCode.Statement (.wrAttn v) :=
  fun _ => ⟨rfl, (by decide : (0x13#5).toNat &&& 0x1F = 0x13)⟩

theorem FormatOfCode.unwiredRB0 : FormatOfCode.Statement .unwiredRB0 := fun _ => ⟨rfl, rfl⟩

theorem FormatOfCode.unwiredRB1 : FormatOfCode.Statement .unwiredRB1 := fun _ => ⟨rfl, rfl⟩

theorem FormatOfCode.unwiredRB4 : FormatOfCode.Statement .unwiredRB4 := fun _ => ⟨rfl, rfl⟩

theorem FormatOfCode.unwiredRB5 : FormatOfCode.Statement .unwiredRB5 := fun _ => ⟨rfl, rfl⟩

theorem FormatOfCode.unwiredRB6 : FormatOfCode.Statement .unwiredRB6 := fun _ => ⟨rfl, rfl⟩

theorem FormatOfCode.unwiredRB7 : FormatOfCode.Statement .unwiredRB7 := fun _ => ⟨rfl, rfl⟩

theorem FormatOfCode.unwiredRW1 : FormatOfCode.Statement .unwiredRW1 := fun _ => ⟨rfl, rfl⟩

theorem FormatOfCode.unwiredRW2 : FormatOfCode.Statement .unwiredRW2 := fun _ => ⟨rfl, rfl⟩

theorem FormatOfCode.unwiredRW3 : FormatOfCode.Statement .unwiredRW3 := fun _ => ⟨rfl, rfl⟩

theorem FormatOfCode.unwiredRW4 : FormatOfCode.Statement .unwiredRW4 := fun _ => ⟨rfl, rfl⟩

theorem FormatOfCode.unwiredRW5 : FormatOfCode.Statement .unwiredRW5 := fun _ => ⟨rfl, rfl⟩

theorem FormatOfCode.unwiredRW6 : FormatOfCode.Statement .unwiredRW6 := fun _ => ⟨rfl, rfl⟩

theorem FormatOfCode.unwiredRW7 : FormatOfCode.Statement .unwiredRW7 := fun _ => ⟨rfl, rfl⟩

theorem FormatOfCode.unwiredWB0 (v : Byte) : FormatOfCode.Statement (.unwiredWB0 v) :=
  fun _ => ⟨rfl, (by decide : (0x10#5).toNat &&& 0x1F = 0x10)⟩

theorem FormatOfCode.unwiredWB1 (v : Byte) : FormatOfCode.Statement (.unwiredWB1 v) :=
  fun _ => ⟨rfl, (by decide : (0x11#5).toNat &&& 0x1F = 0x11)⟩

theorem FormatOfCode.unwiredWB4 (v : Byte) : FormatOfCode.Statement (.unwiredWB4 v) :=
  fun _ => ⟨rfl, (by decide : (0x14#5).toNat &&& 0x1F = 0x14)⟩

theorem FormatOfCode.unwiredWB5 (v : Byte) : FormatOfCode.Statement (.unwiredWB5 v) :=
  fun _ => ⟨rfl, (by decide : (0x15#5).toNat &&& 0x1F = 0x15)⟩

theorem FormatOfCode.unwiredWB6 (v : Byte) : FormatOfCode.Statement (.unwiredWB6 v) :=
  fun _ => ⟨rfl, (by decide : (0x16#5).toNat &&& 0x1F = 0x16)⟩

theorem FormatOfCode.unwiredWB7 (v : Byte) : FormatOfCode.Statement (.unwiredWB7 v) :=
  fun _ => ⟨rfl, (by decide : (0x17#5).toNat &&& 0x1F = 0x17)⟩

theorem FormatOfCode.unwiredWW1 (v : Word) : FormatOfCode.Statement (.unwiredWW1 v) :=
  fun _ => ⟨rfl, (by decide : (0x19#5).toNat &&& 0x1F = 0x19)⟩

theorem FormatOfCode.unwiredWW2 (v : Word) : FormatOfCode.Statement (.unwiredWW2 v) :=
  fun _ => ⟨rfl, (by decide : (0x1A#5).toNat &&& 0x1F = 0x1A)⟩

theorem FormatOfCode.unwiredWW3 (v : Word) : FormatOfCode.Statement (.unwiredWW3 v) :=
  fun _ => ⟨rfl, (by decide : (0x1B#5).toNat &&& 0x1F = 0x1B)⟩

theorem FormatOfCode.unwiredWW4 (v : Word) : FormatOfCode.Statement (.unwiredWW4 v) :=
  fun _ => ⟨rfl, (by decide : (0x1C#5).toNat &&& 0x1F = 0x1C)⟩

theorem FormatOfCode.unwiredWW5 (v : Word) : FormatOfCode.Statement (.unwiredWW5 v) :=
  fun _ => ⟨rfl, (by decide : (0x1D#5).toNat &&& 0x1F = 0x1D)⟩

theorem FormatOfCode.unwiredWW6 (v : Word) : FormatOfCode.Statement (.unwiredWW6 v) :=
  fun _ => ⟨rfl, (by decide : (0x1E#5).toNat &&& 0x1F = 0x1E)⟩

theorem FormatOfCode.unwiredWW7 (v : Word) : FormatOfCode.Statement (.unwiredWW7 v) :=
  fun _ => ⟨rfl, (by decide : (0x1F#5).toNat &&& 0x1F = 0x1F)⟩

theorem FormatOfCode.attnCmdreqAD : FormatOfCode.Statement .attnCmdreqAD := fun _ => ⟨rfl, (matches_attn _ _).2⟩

theorem FormatOfCode.attnEoiAD : FormatOfCode.Statement .attnEoiAD := fun _ => ⟨rfl, (matches_attn _ _).2⟩

theorem FormatOfCode.attnCmdreqD0 : FormatOfCode.Statement .attnCmdreqD0 := fun _ => ⟨rfl, (matches_attn _ _).2⟩

theorem FormatOfCode.attnEoiD0 : FormatOfCode.Statement .attnEoiD0 := fun _ => ⟨rfl, (matches_attn _ _).2⟩

theorem FormatOfCode.attnCmdreqD1 : FormatOfCode.Statement .attnCmdreqD1 := fun _ => ⟨rfl, (matches_attn _ _).2⟩

theorem FormatOfCode.attnEoiD1 : FormatOfCode.Statement .attnEoiD1 := fun _ => ⟨rfl, (matches_attn _ _).2⟩

theorem FormatOfCode.attnResetAD : FormatOfCode.Statement .attnResetAD := fun _ => ⟨rfl, (matches_attn _ _).2⟩

theorem FormatOfCode.attnBaddev2 (req : BitVec 4) : FormatOfCode.Statement (.attnBaddev2 req) :=
  fun _ => ⟨rfl, (matches_attn _ _).1⟩

theorem FormatOfCode.attnBaddev3 (req : BitVec 4) : FormatOfCode.Statement (.attnBaddev3 req) :=
  fun _ => ⟨rfl, (matches_attn _ _).1⟩

theorem FormatOfCode.attnBaddev4 (req : BitVec 4) : FormatOfCode.Statement (.attnBaddev4 req) :=
  fun _ => ⟨rfl, (matches_attn _ _).1⟩

theorem FormatOfCode.attnBaddev5 (req : BitVec 4) : FormatOfCode.Statement (.attnBaddev5 req) :=
  fun _ => ⟨rfl, (matches_attn _ _).1⟩

theorem FormatOfCode.attnBaddev6 (req : BitVec 4) : FormatOfCode.Statement (.attnBaddev6 req) :=
  fun _ => ⟨rfl, (matches_attn _ _).1⟩

theorem FormatOfCode.attnBadreqAD_0 : FormatOfCode.Statement .attnBadreqAD_0 := fun _ => ⟨rfl, (matches_attn _ _).2⟩

theorem FormatOfCode.attnBadreqAD_3 : FormatOfCode.Statement .attnBadreqAD_3 := fun _ => ⟨rfl, (matches_attn _ _).2⟩

theorem FormatOfCode.attnBadreqAD_5 : FormatOfCode.Statement .attnBadreqAD_5 := fun _ => ⟨rfl, (matches_attn _ _).2⟩

theorem FormatOfCode.attnBadreqAD_6 : FormatOfCode.Statement .attnBadreqAD_6 := fun _ => ⟨rfl, (matches_attn _ _).2⟩

theorem FormatOfCode.attnBadreqAD_7 : FormatOfCode.Statement .attnBadreqAD_7 := fun _ => ⟨rfl, (matches_attn _ _).2⟩

theorem FormatOfCode.attnBadreqAD_8 : FormatOfCode.Statement .attnBadreqAD_8 := fun _ => ⟨rfl, (matches_attn _ _).2⟩

theorem FormatOfCode.attnBadreqAD_9 : FormatOfCode.Statement .attnBadreqAD_9 := fun _ => ⟨rfl, (matches_attn _ _).2⟩

theorem FormatOfCode.attnBadreqAD_A : FormatOfCode.Statement .attnBadreqAD_A := fun _ => ⟨rfl, (matches_attn _ _).2⟩

theorem FormatOfCode.attnBadreqAD_B : FormatOfCode.Statement .attnBadreqAD_B := fun _ => ⟨rfl, (matches_attn _ _).2⟩

theorem FormatOfCode.attnBadreqAD_C : FormatOfCode.Statement .attnBadreqAD_C := fun _ => ⟨rfl, (matches_attn _ _).2⟩

theorem FormatOfCode.attnBadreqAD_D : FormatOfCode.Statement .attnBadreqAD_D := fun _ => ⟨rfl, (matches_attn _ _).2⟩

theorem FormatOfCode.attnBadreqAD_E : FormatOfCode.Statement .attnBadreqAD_E := fun _ => ⟨rfl, (matches_attn _ _).2⟩

theorem FormatOfCode.attnBadreqAD_F : FormatOfCode.Statement .attnBadreqAD_F := fun _ => ⟨rfl, (matches_attn _ _).2⟩

theorem FormatOfCode.attnBadreqD0_0 : FormatOfCode.Statement .attnBadreqD0_0 := fun _ => ⟨rfl, (matches_attn _ _).2⟩

theorem FormatOfCode.attnBadreqD0_3 : FormatOfCode.Statement .attnBadreqD0_3 := fun _ => ⟨rfl, (matches_attn _ _).2⟩

theorem FormatOfCode.attnBadreqD0_4 : FormatOfCode.Statement .attnBadreqD0_4 := fun _ => ⟨rfl, (matches_attn _ _).2⟩

theorem FormatOfCode.attnBadreqD0_5 : FormatOfCode.Statement .attnBadreqD0_5 := fun _ => ⟨rfl, (matches_attn _ _).2⟩

theorem FormatOfCode.attnBadreqD0_6 : FormatOfCode.Statement .attnBadreqD0_6 := fun _ => ⟨rfl, (matches_attn _ _).2⟩

theorem FormatOfCode.attnBadreqD0_7 : FormatOfCode.Statement .attnBadreqD0_7 := fun _ => ⟨rfl, (matches_attn _ _).2⟩

theorem FormatOfCode.attnBadreqD0_8 : FormatOfCode.Statement .attnBadreqD0_8 := fun _ => ⟨rfl, (matches_attn _ _).2⟩

theorem FormatOfCode.attnBadreqD0_9 : FormatOfCode.Statement .attnBadreqD0_9 := fun _ => ⟨rfl, (matches_attn _ _).2⟩

theorem FormatOfCode.attnBadreqD0_A : FormatOfCode.Statement .attnBadreqD0_A := fun _ => ⟨rfl, (matches_attn _ _).2⟩

theorem FormatOfCode.attnBadreqD0_B : FormatOfCode.Statement .attnBadreqD0_B := fun _ => ⟨rfl, (matches_attn _ _).2⟩

theorem FormatOfCode.attnBadreqD0_C : FormatOfCode.Statement .attnBadreqD0_C := fun _ => ⟨rfl, (matches_attn _ _).2⟩

theorem FormatOfCode.attnBadreqD0_D : FormatOfCode.Statement .attnBadreqD0_D := fun _ => ⟨rfl, (matches_attn _ _).2⟩

theorem FormatOfCode.attnBadreqD0_E : FormatOfCode.Statement .attnBadreqD0_E := fun _ => ⟨rfl, (matches_attn _ _).2⟩

theorem FormatOfCode.attnBadreqD0_F : FormatOfCode.Statement .attnBadreqD0_F := fun _ => ⟨rfl, (matches_attn _ _).2⟩

theorem FormatOfCode.attnBadreqD1_0 : FormatOfCode.Statement .attnBadreqD1_0 := fun _ => ⟨rfl, (matches_attn _ _).2⟩

theorem FormatOfCode.attnBadreqD1_3 : FormatOfCode.Statement .attnBadreqD1_3 := fun _ => ⟨rfl, (matches_attn _ _).2⟩

theorem FormatOfCode.attnBadreqD1_4 : FormatOfCode.Statement .attnBadreqD1_4 := fun _ => ⟨rfl, (matches_attn _ _).2⟩

theorem FormatOfCode.attnBadreqD1_5 : FormatOfCode.Statement .attnBadreqD1_5 := fun _ => ⟨rfl, (matches_attn _ _).2⟩

theorem FormatOfCode.attnBadreqD1_6 : FormatOfCode.Statement .attnBadreqD1_6 := fun _ => ⟨rfl, (matches_attn _ _).2⟩

theorem FormatOfCode.attnBadreqD1_7 : FormatOfCode.Statement .attnBadreqD1_7 := fun _ => ⟨rfl, (matches_attn _ _).2⟩

theorem FormatOfCode.attnBadreqD1_8 : FormatOfCode.Statement .attnBadreqD1_8 := fun _ => ⟨rfl, (matches_attn _ _).2⟩

theorem FormatOfCode.attnBadreqD1_9 : FormatOfCode.Statement .attnBadreqD1_9 := fun _ => ⟨rfl, (matches_attn _ _).2⟩

theorem FormatOfCode.attnBadreqD1_A : FormatOfCode.Statement .attnBadreqD1_A := fun _ => ⟨rfl, (matches_attn _ _).2⟩

theorem FormatOfCode.attnBadreqD1_B : FormatOfCode.Statement .attnBadreqD1_B := fun _ => ⟨rfl, (matches_attn _ _).2⟩

theorem FormatOfCode.attnBadreqD1_C : FormatOfCode.Statement .attnBadreqD1_C := fun _ => ⟨rfl, (matches_attn _ _).2⟩

theorem FormatOfCode.attnBadreqD1_D : FormatOfCode.Statement .attnBadreqD1_D := fun _ => ⟨rfl, (matches_attn _ _).2⟩

theorem FormatOfCode.attnBadreqD1_E : FormatOfCode.Statement .attnBadreqD1_E := fun _ => ⟨rfl, (matches_attn _ _).2⟩

theorem FormatOfCode.attnBadreqD1_F : FormatOfCode.Statement .attnBadreqD1_F := fun _ => ⟨rfl, (matches_attn _ _).2⟩

theorem FormatOfCode.read (four : Bool) (dev : BitVec 3) : FormatOfCode.Statement (.read four dev) :=
  fun _ => ⟨rfl, (matches_cmd0 _ _ _).1⟩

theorem FormatOfCode.write (four : Bool) (dev : BitVec 3) : FormatOfCode.Statement (.write four dev) :=
  fun _ => ⟨rfl, (matches_cmd0 _ _ _).1⟩

theorem FormatOfCode.readVerify (four : Bool) (dev : BitVec 3) : FormatOfCode.Statement (.readVerify four dev) :=
  fun _ => ⟨rfl, (matches_cmd0 _ _ _).1⟩

theorem FormatOfCode.writeVerify (four : Bool) (dev : BitVec 3) : FormatOfCode.Statement (.writeVerify four dev) :=
  fun _ => ⟨rfl, (matches_cmd0 _ _ _).1⟩

theorem FormatOfCode.seek (four : Bool) (dev : BitVec 3) : FormatOfCode.Statement (.seek four dev) :=
  fun _ => ⟨rfl, (matches_cmd0 _ _ _).1⟩

theorem FormatOfCode.parkHeads (four : Bool) (dev : BitVec 3) : FormatOfCode.Statement (.parkHeads four dev) :=
  fun _ => ⟨rfl, (matches_cmd0 _ _ _).1⟩

theorem FormatOfCode.getDeviceStatus (four : Bool) (dev : BitVec 3) : FormatOfCode.Statement (.getDeviceStatus four dev) :=
  fun _ => ⟨rfl, (matches_cmd0 _ _ _).1⟩

theorem FormatOfCode.getDeviceConfigAdapter (four : Bool) : FormatOfCode.Statement (.getDeviceConfigAdapter four) :=
  fun _ => ⟨rfl, (matches_cmd0 _ _ _).2⟩

theorem FormatOfCode.getDeviceConfigDrive0 (four : Bool) : FormatOfCode.Statement (.getDeviceConfigDrive0 four) :=
  fun _ => ⟨rfl, (matches_cmd0 _ _ _).2⟩

theorem FormatOfCode.getDeviceConfigDrive1 (four : Bool) : FormatOfCode.Statement (.getDeviceConfigDrive1 four) :=
  fun _ => ⟨rfl, (matches_cmd0 _ _ _).2⟩

theorem FormatOfCode.getPositionInfo (four : Bool) (dev : BitVec 3) : FormatOfCode.Statement (.getPositionInfo four dev) :=
  fun _ => ⟨rfl, (matches_cmd0 _ _ _).1⟩

theorem FormatOfCode.sectorBufferWrite (four : Bool) (dev : BitVec 3) : FormatOfCode.Statement (.sectorBufferWrite four dev) :=
  fun _ => ⟨rfl, (matches_cmd0 _ _ _).1⟩

theorem FormatOfCode.sectorBufferRead (four : Bool) (dev : BitVec 3) : FormatOfCode.Statement (.sectorBufferRead four dev) :=
  fun _ => ⟨rfl, (matches_cmd0 _ _ _).1⟩

theorem FormatOfCode.diagnostic (four : Bool) (dev : BitVec 3) : FormatOfCode.Statement (.diagnostic four dev) :=
  fun _ => ⟨rfl, (matches_cmd0 _ _ _).1⟩

theorem FormatOfCode.formatUnit (four : Bool) (dev : BitVec 3) : FormatOfCode.Statement (.formatUnit four dev) :=
  fun _ => ⟨rfl, (matches_cmd0 _ _ _).1⟩

theorem FormatOfCode.formatPrepare (four : Bool) (dev : BitVec 3) : FormatOfCode.Statement (.formatPrepare four dev) :=
  fun _ => ⟨rfl, (matches_cmd0 _ _ _).1⟩

theorem FormatOfCode.unrecognized00 (four : Bool) (dev : BitVec 3) : FormatOfCode.Statement (.unrecognized00 four dev) :=
  fun _ => ⟨rfl, (matches_cmd0 _ _ _).1⟩

theorem FormatOfCode.unrecognized07 (four : Bool) (dev : BitVec 3) : FormatOfCode.Statement (.unrecognized07 four dev) :=
  fun _ => ⟨rfl, (matches_cmd0 _ _ _).1⟩

theorem FormatOfCode.unrecognized0B (four : Bool) (dev : BitVec 3) : FormatOfCode.Statement (.unrecognized0B four dev) :=
  fun _ => ⟨rfl, (matches_cmd0 _ _ _).1⟩

theorem FormatOfCode.unrecognized0C (four : Bool) (dev : BitVec 3) : FormatOfCode.Statement (.unrecognized0C four dev) :=
  fun _ => ⟨rfl, (matches_cmd0 _ _ _).1⟩

theorem FormatOfCode.unrecognized0D (four : Bool) (dev : BitVec 3) : FormatOfCode.Statement (.unrecognized0D four dev) :=
  fun _ => ⟨rfl, (matches_cmd0 _ _ _).1⟩

theorem FormatOfCode.unrecognized0E (four : Bool) (dev : BitVec 3) : FormatOfCode.Statement (.unrecognized0E four dev) :=
  fun _ => ⟨rfl, (matches_cmd0 _ _ _).1⟩

theorem FormatOfCode.unrecognized0F (four : Bool) (dev : BitVec 3) : FormatOfCode.Statement (.unrecognized0F four dev) :=
  fun _ => ⟨rfl, (matches_cmd0 _ _ _).1⟩

theorem FormatOfCode.unrecognized13 (four : Bool) (dev : BitVec 3) : FormatOfCode.Statement (.unrecognized13 four dev) :=
  fun _ => ⟨rfl, (matches_cmd0 _ _ _).1⟩

theorem FormatOfCode.unrecognized14 (four : Bool) (dev : BitVec 3) : FormatOfCode.Statement (.unrecognized14 four dev) :=
  fun _ => ⟨rfl, (matches_cmd0 _ _ _).1⟩

theorem FormatOfCode.unrecognized15 (four : Bool) (dev : BitVec 3) : FormatOfCode.Statement (.unrecognized15 four dev) :=
  fun _ => ⟨rfl, (matches_cmd0 _ _ _).1⟩

theorem FormatOfCode.unrecognized18 (four : Bool) (dev : BitVec 3) : FormatOfCode.Statement (.unrecognized18 four dev) :=
  fun _ => ⟨rfl, (matches_cmd0 _ _ _).1⟩

theorem FormatOfCode.unrecognized19 (four : Bool) (dev : BitVec 3) : FormatOfCode.Statement (.unrecognized19 four dev) :=
  fun _ => ⟨rfl, (matches_cmd0 _ _ _).1⟩

theorem FormatOfCode.unrecognized1A (four : Bool) (dev : BitVec 3) : FormatOfCode.Statement (.unrecognized1A four dev) :=
  fun _ => ⟨rfl, (matches_cmd0 _ _ _).1⟩

theorem FormatOfCode.unrecognized1B (four : Bool) (dev : BitVec 3) : FormatOfCode.Statement (.unrecognized1B four dev) :=
  fun _ => ⟨rfl, (matches_cmd0 _ _ _).1⟩

theorem FormatOfCode.unrecognized1C (four : Bool) (dev : BitVec 3) : FormatOfCode.Statement (.unrecognized1C four dev) :=
  fun _ => ⟨rfl, (matches_cmd0 _ _ _).1⟩

theorem FormatOfCode.unrecognized1D (four : Bool) (dev : BitVec 3) : FormatOfCode.Statement (.unrecognized1D four dev) :=
  fun _ => ⟨rfl, (matches_cmd0 _ _ _).1⟩

theorem FormatOfCode.unrecognized1E (four : Bool) (dev : BitVec 3) : FormatOfCode.Statement (.unrecognized1E four dev) :=
  fun _ => ⟨rfl, (matches_cmd0 _ _ _).1⟩

theorem FormatOfCode.unrecognized1F (four : Bool) (dev : BitVec 3) : FormatOfCode.Statement (.unrecognized1F four dev) :=
  fun _ => ⟨rfl, (matches_cmd0 _ _ _).1⟩

theorem FormatOfCode.cfgRead (i : BitVec 3) : FormatOfCode.Statement (.cfgRead i) := by
  have h : ∀ i : BitVec 3, (cfgopDesc 0 i).toNat &&& 0x18 = 0x00 := by decide
  exact fun _ => ⟨rfl, h i⟩

theorem FormatOfCode.cfgWriteIgnored (i : BitVec 3) (v : Byte) : FormatOfCode.Statement (.cfgWriteIgnored i v) := by
  have h : ∀ i : BitVec 3, Instr.wf (.cfgWriteIgnored i 0) = true →
      (cfgopDesc 1 i).toNat &&& 0x1E = 0x08 := by decide
  exact fun hw => ⟨rfl, h i hw⟩

theorem FormatOfCode.cfgWrite23 (i : BitVec 3) (v : Byte) : FormatOfCode.Statement (.cfgWrite23 i v) := by
  have h : ∀ i : BitVec 3, Instr.wf (.cfgWrite23 i 0) = true →
      (cfgopDesc 1 i).toNat &&& 0x1E = 0x0A := by decide
  exact fun hw => ⟨rfl, h i hw⟩

theorem FormatOfCode.cfgWrite47 (i : BitVec 3) (v : Byte) : FormatOfCode.Statement (.cfgWrite47 i v) := by
  have h : ∀ i : BitVec 3, Instr.wf (.cfgWrite47 i 0) = true →
      (cfgopDesc 1 i).toNat &&& 0x1C = 0x0C := by decide
  exact fun hw => ⟨rfl, h i hw⟩

theorem FormatOfCode.cfgFeedback : FormatOfCode.Statement .cfgFeedback := fun _ => ⟨rfl, rfl⟩

theorem FormatOfCode.cfgReset : FormatOfCode.Statement .cfgReset := fun _ => ⟨rfl, rfl⟩

end Sys2Proof.Laws
end

