-- ==== Sys2Proof/Laws/Step.lean ====
section
/-! SUPPORT. What a step, a host access, a command request and a configuration write can do, each said once. -/

namespace Sys2Proof.Machine

/-- Everything that a step to a next state can be: nothing, or one instruction on the state with the schedule's first entry
taken (R15, R42, R82). -/
theorem step_cases {s t : State} (h : step s = .next t) :
    s.blk.fault = none ∧
      ((s.ext.schedule = [] ∧ t = s) ∨
        ∃ e rest, s.ext.schedule = e :: rest ∧
          ((eventCode e s = none ∧ t = { s with ext := { s.ext with schedule := rest } }) ∨
            ∃ c i, eventCode e s = some c ∧ decode c = .ok i ∧
              exec i { s with ext := { s.ext with schedule := rest } } = .next t)) := by
  cases hf : s.blk.fault with
  | some r => simp [step, hf] at h
  | none =>
    refine ⟨rfl, ?_⟩
    cases hs : s.ext.schedule with
    | nil =>
      simp only [step, hf, fetch, hs, Host.Outcome.next.injEq] at h
      exact .inl ⟨rfl, h.symm⟩
    | cons e rest =>
      refine .inr ⟨e, rest, rfl, ?_⟩
      have he : eventCode e { s with ext := { s.ext with schedule := rest } } = eventCode e s := by cases e <;> rfl
      simp only [step, hf, fetch, hs, he] at h
      cases hc : eventCode e s with
      | none =>
        simp only [hc, Host.Outcome.next.injEq] at h
        exact .inl ⟨rfl, h.symm⟩
      | some c =>
        simp only [hc] at h
        split at h
        · rename_i i hi
          exact .inr ⟨c, i, rfl, hi, h⟩
        · contradiction

/-- A host read reaches the block, or draws a value of the host bus (R80). -/
theorem hostRead_cases {w : Width} {s t : State} {body : State → StepResult} (h : hostRead w s body = .next t) :
    (s.blk.ioEnabled = true ∧ body s = .next t) ∨ (s.blk.ioEnabled = false ∧ t = s.busRead w) := by
  unfold hostRead at h
  split at h
  · rename_i hi
    exact .inl ⟨hi, h⟩
  · rename_i hi
    exact .inr ⟨by simpa using hi, (Host.Outcome.next.inj h).symm⟩

/-- A host write reaches the block, or nothing (R80). -/
theorem hostWrite_cases {s t : State} {body : State → StepResult} (h : hostWrite s body = .next t) :
    (s.blk.ioEnabled = true ∧ body s = .next t) ∨ (s.blk.ioEnabled = false ∧ t = s) := by
  unfold hostWrite at h
  split at h
  · rename_i hi
    exact .inl ⟨hi, h⟩
  · rename_i hi
    exact .inr ⟨by simpa using hi, (Host.Outcome.next.inj h).symm⟩

/-- A command request faults, or is accepted (R161, R162). -/
theorem commandRequest_cases {d : Target} {s t : State} (h : commandRequest d s = .next t) :
    (s.blk.commandInProgress = true ∧ t = raiseFatal s .commandWhileBusy s) ∨
      (s.blk.commandInProgress = false ∧ t = { s with blk := s.blk.requested d }) := by
  unfold commandRequest at h
  split at h
  · rename_i hi
    exact .inl ⟨hi, (Host.Outcome.next.inj h).symm⟩
  · rename_i hi
    exact .inr ⟨by simpa using hi, (Host.Outcome.next.inj h).symm⟩

/-- An attention byte faults, requests a command, ends an interrupt or starts a reset (R160). -/
theorem attention_cases {v : Byte} {s t : State} (h : attention v s = .next t) :
    (∃ r, t = raiseFatal s r s) ∨ (∃ d, commandRequest d s = .next t) ∨ endOfInterrupt s = .next t ∨ t = s.resetStart := by
  unfold attention at h
  split at h
  · exact .inl ⟨_, (Host.Outcome.next.inj h).symm⟩
  · rename_i d _
    unfold attentionRequest at h
    split at h
    · exact .inr (.inl ⟨d, h⟩)
    · split at h
      · exact .inr (.inr (.inl h))
      · split at h
        · exact .inr (.inr (.inr (Host.Outcome.next.inj h).symm))
        · exact .inl ⟨_, (Host.Outcome.next.inj h).symm⟩

/-- A configuration write changes the block and the calls only, and undoes no call (R351, R353). -/
theorem cfgWrite_cases (i : Nat) (v : Byte) (s : State) :
    (i < 2 ∧ cfgWrite i v s = s) ∨
      (2 ≤ i ∧ ∃ calls, cfgWrite i v s =
        { s with blk := s.blk.configured i v, ext := { s.ext with calls := calls ++ s.ext.calls } }) := by
  by_cases h : i < 2
  · exact .inl ⟨h, if_pos h⟩
  · exact .inr ⟨by omega, _, if_neg h⟩

/-- Every memory of power-on is in canonical form. -/
theorem reset_memories_wf :
    Memory.wf State.reset.blk.sectorBuf = true ∧ Memory.wf State.reset.drive0.backing = true ∧
      Memory.wf State.reset.drive1.backing = true := ⟨rfl, rfl, rfl⟩

end Sys2Proof.Machine
end

