-- ==== Sys2Proof/Tests/Slice0.lean ====
section
/-! SUPPORT. Tests: the well-formedness checks, the decoding of every row, one-step vectors of 95_test_vectors.md, and for every
statement with hypotheses a state that meets them. -/

namespace Sys2Proof.Tests

set_option Elab.async false

open Sys2Proof Sys2Proof.Machine

/-! Well-formedness: each check refuses an ill-formed term, and admits its neighbour. -/

/-- Device codes 2 to 6 name no target (R101). -/
theorem test_wf_device :
    Instr.wf (.read true 2) = false ∧ Instr.wf (.write false 6) = false ∧ Instr.wf (.readVerify true 3) = false ∧
    Instr.wf (.writeVerify true 4) = false ∧ Instr.wf (.seek false 5) = false ∧ Instr.wf (.parkHeads false 2) = false ∧
    Instr.wf (.getDeviceStatus false 3) = false ∧ Instr.wf (.getPositionInfo false 4) = false ∧
    Instr.wf (.sectorBufferWrite false 5) = false ∧ Instr.wf (.sectorBufferRead false 6) = false ∧
    Instr.wf (.diagnostic false 2) = false ∧ Instr.wf (.formatUnit false 3) = false ∧
    Instr.wf (.formatPrepare false 4) = false ∧ Instr.wf (.unrecognized00 false 5) = false ∧
    Instr.wf (.unrecognized1F true 6) = false ∧
    Instr.wf (.read true 0) = true ∧ Instr.wf (.read true 1) = true ∧ Instr.wf (.diagnostic false 7) = true := by decide

/-- The other unrecognized codes have the same check (R101, R112). -/
theorem test_wf_device_unrecognized :
    [Instr.unrecognized00 false 2, .unrecognized07 false 2, .unrecognized0B false 2, .unrecognized0C false 2, .unrecognized0D false 2, .unrecognized0E false 2, .unrecognized0F false 2, .unrecognized13 false 2, .unrecognized14 false 2, .unrecognized15 false 2, .unrecognized18 false 2, .unrecognized19 false 2, .unrecognized1A false 2, .unrecognized1B false 2, .unrecognized1C false 2, .unrecognized1D false 2, .unrecognized1E false 2, .unrecognized1F false 2].all (fun i => !i.wf) = true := by decide

/-- A configuration write has an index of its row (R120). -/
theorem test_wf_index :
    Instr.wf (.cfgWriteIgnored 2 0) = false ∧ Instr.wf (.cfgWriteIgnored 1 0) = true ∧
    Instr.wf (.cfgWrite23 1 0) = false ∧ Instr.wf (.cfgWrite23 4 0) = false ∧ Instr.wf (.cfgWrite23 3 0) = true ∧
    Instr.wf (.cfgWrite47 3 0) = false ∧ Instr.wf (.cfgWrite47 4 0) = true := by decide

/-- The instruction a code is read as. -/
def read (c : Code) : Option Instr := (decode c).toOption

/-- Why a code is rejected. -/
def rejected (c : Code) : Option Reject :=
  match decode c with
  | .ok _ => none
  | .error r => some r

/-! Decoding: a word of every row, written from the encodings of 30_encoding.md. -/

/-- R117: descriptors `dir`, `width`, `offset` with the data 0xA5C3 on the lines. -/
theorem test_decode_port_low :
    [
      Code.port 0b01000 0xA5C3, .port 0b11000 0xA5C3, .port 0b00010 0xA5C3, .port 0b10010 0xA5C3,
      .port 0b00011 0xA5C3, .port 0b10011 0xA5C3, .port 0b00000 0xA5C3, .port 0b00001 0xA5C3, .port 0b00100 0xA5C3,
      .port 0b00101 0xA5C3, .port 0b00110 0xA5C3, .port 0b00111 0xA5C3, .port 0b01001 0xA5C3, .port 0b01010 0xA5C3,
      .port 0b01011 0xA5C3, .port 0b01100 0xA5C3].map read = [
      Instr.rdSir, .wrCir 0xA5C3, .rdStatus, .wrCtrl 0xC3, .rdIsr, .wrAttn 0xC3, .unwiredRB0, .unwiredRB1,
      .unwiredRB4, .unwiredRB5, .unwiredRB6, .unwiredRB7, .unwiredRW1, .unwiredRW2, .unwiredRW3, .unwiredRW4].map some := by decide

/-- R117: the rest of the descriptors. -/
theorem test_decode_port_high :
    [
      Code.port 0b01101 0xA5C3, .port 0b01110 0xA5C3, .port 0b01111 0xA5C3, .port 0b10000 0xA5C3,
      .port 0b10001 0xA5C3, .port 0b10100 0xA5C3, .port 0b10101 0xA5C3, .port 0b10110 0xA5C3, .port 0b10111 0xA5C3,
      .port 0b11001 0xA5C3, .port 0b11010 0xA5C3, .port 0b11011 0xA5C3, .port 0b11100 0xA5C3, .port 0b11101 0xA5C3,
      .port 0b11110 0xA5C3, .port 0b11111 0xA5C3].map read = [
      Instr.unwiredRW5, .unwiredRW6, .unwiredRW7, .unwiredWB0 0xC3, .unwiredWB1 0xC3, .unwiredWB4 0xC3,
      .unwiredWB5 0xC3, .unwiredWB6 0xC3, .unwiredWB7 0xC3, .unwiredWW1 0xA5C3, .unwiredWW2 0xA5C3,
      .unwiredWW3 0xA5C3, .unwiredWW4 0xA5C3, .unwiredWW5 0xA5C3, .unwiredWW6 0xA5C3, .unwiredWW7 0xA5C3].map some := by decide

/-- R102, R103: device 7:5, bit 4 set (it is ignored), request 3:0; a free request is 0xA. -/
theorem test_decode_attn_low :
    [
      Code.attn 0b11110001, .attn 0b11110010, .attn 0b00010001, .attn 0b00010010, .attn 0b00110001, .attn 0b00110010,
      .attn 0b11110100, .attn 0b01011010, .attn 0b01111010, .attn 0b10011010, .attn 0b10111010, .attn 0b11011010,
      .attn 0b11110000, .attn 0b11110011, .attn 0b11110101, .attn 0b11110110, .attn 0b11110111, .attn 0b11111000,
      .attn 0b11111001, .attn 0b11111010, .attn 0b11111011, .attn 0b11111100, .attn 0b11111101, .attn 0b11111110,
      .attn 0b11111111, .attn 0b00010000].map read = [
      Instr.attnCmdreqAD, .attnEoiAD, .attnCmdreqD0, .attnEoiD0, .attnCmdreqD1, .attnEoiD1, .attnResetAD,
      .attnBaddev2 0xA, .attnBaddev3 0xA, .attnBaddev4 0xA, .attnBaddev5 0xA, .attnBaddev6 0xA, .attnBadreqAD_0,
      .attnBadreqAD_3, .attnBadreqAD_5, .attnBadreqAD_6, .attnBadreqAD_7, .attnBadreqAD_8, .attnBadreqAD_9,
      .attnBadreqAD_A, .attnBadreqAD_B, .attnBadreqAD_C, .attnBadreqAD_D, .attnBadreqAD_E, .attnBadreqAD_F,
      .attnBadreqD0_0].map some := by decide

/-- R102, R103, R166: the rest of the attention bytes. -/
theorem test_decode_attn_high :
    [
      Code.attn 0b00010011, .attn 0b00010100, .attn 0b00010101, .attn 0b00010110, .attn 0b00010111, .attn 0b00011000,
      .attn 0b00011001, .attn 0b00011010, .attn 0b00011011, .attn 0b00011100, .attn 0b00011101, .attn 0b00011110,
      .attn 0b00011111, .attn 0b00110000, .attn 0b00110011, .attn 0b00110100, .attn 0b00110101, .attn 0b00110110,
      .attn 0b00110111, .attn 0b00111000, .attn 0b00111001, .attn 0b00111010, .attn 0b00111011, .attn 0b00111100,
      .attn 0b00111101, .attn 0b00111110, .attn 0b00111111].map read = [
      Instr.attnBadreqD0_3, .attnBadreqD0_4, .attnBadreqD0_5, .attnBadreqD0_6, .attnBadreqD0_7, .attnBadreqD0_8,
      .attnBadreqD0_9, .attnBadreqD0_A, .attnBadreqD0_B, .attnBadreqD0_C, .attnBadreqD0_D, .attnBadreqD0_E,
      .attnBadreqD0_F, .attnBadreqD1_0, .attnBadreqD1_3, .attnBadreqD1_4, .attnBadreqD1_5, .attnBadreqD1_6,
      .attnBadreqD1_7, .attnBadreqD1_8, .attnBadreqD1_9, .attnBadreqD1_A, .attnBadreqD1_B, .attnBadreqD1_C,
      .attnBadreqD1_D, .attnBadreqD1_E, .attnBadreqD1_F].map some := by decide

/-- R107, R111, R112: the code in 4:0, the device in 7:5, the size flag in 14; bits 15 and 13:8 set (they are ignored). -/
theorem test_decode_cmd0 :
    [
      Code.cmd0 0xBFE1, .cmd0 0xFF02, .cmd0 0xBF23, .cmd0 0xFFE4, .cmd0 0xBF05, .cmd0 0xFF26, .cmd0 0xBFE8,
      .cmd0 0xFFE9, .cmd0 0xBF09, .cmd0 0xFF29, .cmd0 0xBF0A, .cmd0 0xFF30, .cmd0 0xBFF1, .cmd0 0xFF12, .cmd0 0xBF36,
      .cmd0 0xFFF7, .cmd0 0xBF00, .cmd0 0xFF27, .cmd0 0xBFEB, .cmd0 0xFF0C, .cmd0 0xBF2D, .cmd0 0xFFEE, .cmd0 0xBF0F,
      .cmd0 0xFF33, .cmd0 0xBFF4, .cmd0 0xFF15, .cmd0 0xBF38, .cmd0 0xFFF9, .cmd0 0xBF1A, .cmd0 0xFF3B, .cmd0 0xBFFC,
      .cmd0 0xFF1D, .cmd0 0xBF3E, .cmd0 0xFFFF].map read = [
      Instr.read false 7, .write true 0, .readVerify false 1, .writeVerify true 7, .seek false 0, .parkHeads true 1,
      .getDeviceStatus false 7, .getDeviceConfigAdapter true, .getDeviceConfigDrive0 false,
      .getDeviceConfigDrive1 true, .getPositionInfo false 0, .sectorBufferWrite true 1, .sectorBufferRead false 7,
      .diagnostic true 0, .formatUnit false 1, .formatPrepare true 7, .unrecognized00 false 0,
      .unrecognized07 true 1, .unrecognized0B false 7, .unrecognized0C true 0, .unrecognized0D false 1,
      .unrecognized0E true 7, .unrecognized0F false 0, .unrecognized13 true 1, .unrecognized14 false 7,
      .unrecognized15 true 0, .unrecognized18 false 1, .unrecognized19 true 7, .unrecognized1A false 0,
      .unrecognized1B true 1, .unrecognized1C false 7, .unrecognized1D true 0, .unrecognized1E false 1,
      .unrecognized1F true 7].map some := by decide

/-- R120: the call in 4:3, the index in 2:0. -/
theorem test_decode_cfgop :
    [
      Code.cfgop 0b00101 0x5A, .cfgop 0b01001 0x5A, .cfgop 0b01010 0x5A, .cfgop 0b01011 0x5A, .cfgop 0b01100 0x5A,
      .cfgop 0b01111 0x5A, .cfgop 0b10000 0, .cfgop 0b11000 0].map read = [
      Instr.cfgRead 5, .cfgWriteIgnored 1 0x5A, .cfgWrite23 2 0x5A, .cfgWrite23 3 0x5A, .cfgWrite47 4 0x5A,
      .cfgWrite47 7 0x5A, .cfgFeedback, .cfgReset].map some := by decide

/-- Codes that are no row are rejected by name (R101, R120). -/
theorem test_decode_rejects :
    rejected (.cmd0 0x0049) = some .noTarget ∧ rejected (.cfgop 0b10001 0) = some .callTakesNoIndex ∧
    rejected (.cfgop 0b11111 0) = some .callTakesNoIndex := by decide

/-! One step on a small state. The expected values are those of the vectors named. -/

/-- What a step or an instruction answers, where it answers a next state. -/
def after {α : Type} (r : StepResult) (f : State → α) : Option α :=
  match r with
  | .next t => some (f t)
  | _ => none

/-- The standard start state Z of 95_test_vectors.md. -/
def stateZ : State :=
  { State.reset with blk := { State.reset.blk with
      cfg := #v[0xFF, 0xDD, 0x0D, 0, 0, 0, 0, 0], dmaChannel := 3, ioEnabled := true, ctrl := 0x03 } }

/-- A state whose next firing runs phase `p` of the block `q` for the target `t`. -/
def executing (p : Phase) (q : Vector Word 4) (t : Target) : State :=
  { stateZ with blk := { stateZ.blk with
      phase := p, cmdQueue := q, command := cmd0Code q[0], cmdDev := t, clock := .armed 1, status := 0x20 } }

/-- A firing, as a step. -/
def fired {α : Type} (s : State) (f : State → α) : Option α := after (step (s.scheduled .fire)) f

/-- A bus cycle at an offset of the window, as a step. -/
def bus {α : Type} (s : State) (write word : Bool) (offset : BitVec 16) (data : Word) (f : State → α) : Option α :=
  after (step (s.scheduled (.io write word (s.params.ioBase + offset) data))) f

/-- The report in the status queue. -/
def reported (s : State) : List Word := s.blk.statusQueue.toList.take s.blk.statusLen

/-- The report of a failure: header, code, six zero words. -/
def failure (header first second : Word) : List Word := [header, first, second, 0, 0, 0, 0, 0, 0]

/-- The three registers that a resolution leaves. -/
def resolution (s : State) : List Word × Byte × Byte × Phase := (reported s, s.blk.status, s.blk.irqStatus, s.blk.phase)

def adapter : Target := .adapter
def drive0 : Target := .drive .drive0
def drive1 : Target := .drive .drive1

/-- V-PORT-9. -/
theorem test_rdStatus : bus stateZ false false 2 0 (·.ext.result) = some (.byte 0x00) := by decide +kernel

/-- L1.6: the read of 0xE1 with the status 0x09 leaves the status 0x08. -/
theorem test_rdIsr :
    bus { stateZ with blk := { stateZ.blk with status := 0x09, irqStatus := 0xE1 } } false false 3 0
      (fun t => (t.ext.result, t.blk.status)) = some (.byte 0xE1, 0x08) := by decide +kernel

/-- A state with a report of two words, 0x06E9 and 0x3200, and the cursor at `pos`. -/
def draining (pos : Nat) : State :=
  { stateZ with blk := { stateZ.blk with
      statusQueue := (Vector.replicate 256 0).set 0 0x06E9 |>.set 1 0x3200, statusLen := 2, statusPos := pos, status := 0x08 } }

/-- L1.6: a read before the last word. -/
theorem test_rdSir : bus (draining 0) false true 0 0 (fun t => (t.ext.result, t.blk.statusPos, t.blk.status)) =
    some (.word 0x06E9, 1, 0x08) := by decide +kernel

/-- L1.6: the last word. -/
theorem test_rdSir_last :
    bus (draining 1) false true 0 0 (fun t => (t.ext.result, t.blk.statusPos, t.blk.statusLen, t.blk.status)) =
      some (.word 0x3200, 0, 0, 0x00) := by decide +kernel

/-- V-CTL-1: a rising edge. -/
theorem test_wrCtrl_rising :
    bus stateZ true false 2 0x83 (fun t => (t.blk.status, t.blk.ctrl, t.blk.resetPending, t.blk.clock)) =
      some (0x10, 0x83, false, .disarmed) := by decide +kernel

/-- V-CTL-2: a falling edge. -/
theorem test_wrCtrl_falling :
    bus { stateZ with blk := { stateZ.blk with ctrl := 0x83 } } true false 2 0x03
      (fun t => (t.blk.status, t.blk.ctrl, t.blk.resetPending, t.blk.clock)) =
      some (0x10, 0x03, true, .armed stateZ.params.tReset) := by decide +kernel

/-- V-ATN-3: bit 4 is ignored. -/
theorem test_wrAttn :
    bus stateZ true false 3 0xF1 (fun t => (t.blk.cmdReqInProgress, t.blk.cmdDev, t.blk.status)) =
      some (true, .adapter, 0x10) := by decide +kernel

/-- V-ATN-8. -/
theorem test_wrAttn_device : bus stateZ true false 3 0xC2 (·.blk.fault) = some (some .badAttentionDevice) := by decide +kernel

/-- A state with a command request for `t` taken, and `q` queued up to `pos`. -/
def requested (t : Target) (q : Vector Word 4) (pos : Nat) : State :=
  { stateZ with blk := { stateZ.blk with
      cmdReqInProgress := true, cmdDev := t, cmdQueue := q, cmdPos := pos, status := 0x10 } }

/-- V-CIR-2: the second word of a 2-word block. -/
theorem test_wrCir :
    bus (requested adapter #v[0x00E9, 0, 0, 0] 1) true true 0 0x0000
      (fun t => (t.blk.command, t.blk.phase, t.blk.cmdReqInProgress, t.blk.cmdPos, t.blk.clock)) =
      some (0x09, .p0, false, 0, .armed stateZ.params.tBase) := by decide +kernel

/-- L1.5: the write is not kept. -/
theorem test_wrCir_mismatch :
    bus (requested drive0 #v[0x00E9, 7, 0, 0] 1) true true 0 0x0001
      (fun t => (t.blk.fault, t.blk.cmdPos, t.blk.cmdQueue, t.blk.cmdReqInProgress)) =
      some (some .targetMismatch, 1, #v[0x00E9, 7, 0, 0], true) := by decide +kernel

/-- V-PORT-1, V-PORT-2: at power-on no access reaches the block. -/
theorem test_unbound :
    bus State.reset false false 2 0 (fun t => (t.blk.status, t.ext.busDraws)) = some (0x00, 1) ∧
    bus State.reset true false 3 0x01 (·.blk.cmdReqInProgress) = some false := by decide +kernel

/-- V-PORT-3 to V-PORT-8. -/
theorem test_unwired :
    [bus stateZ false false 1 0 (·.blk.fault), bus stateZ true false 0 0x12 (·.blk.fault),
     bus stateZ false false 0 0 (·.blk.fault), bus stateZ false true 2 0 (·.blk.fault),
     bus stateZ true true 3 1 (·.blk.fault), bus stateZ false false 7 0 (·.blk.fault)] =
      List.replicate 6 (some (some .unwiredPort)) := by decide +kernel

/-- R70: the cycle after the window, and the one before it, are none of the block's. -/
theorem test_outside_window :
    bus stateZ true false 8 0x01 (fun t => (t.blk.fault, t.blk.status)) = some (none, 0x00) ∧
    bus stateZ true false 0xFFFF 0x01 (fun t => (t.blk.fault, t.blk.status)) = some (none, 0x00) := by decide +kernel

/-- The end of the attention byte `b`, as a step. -/
def attended {α : Type} (s : State) (b : Byte) (f : State → α) : Option α := after (step (s.scheduled (.attention b))) f

/-- V-ATN-1, V-ATN-2. -/
theorem test_attnCmdreq :
    attended stateZ 0x01 (fun t => (t.blk.cmdDev, t.blk.cmdReqInProgress, t.blk.status)) = some (drive0, true, 0x10) ∧
    attended stateZ 0x21 (fun t => (t.blk.cmdDev, t.blk.cmdReqInProgress)) = some (drive1, true) := by decide +kernel

/-- V-ATN-4, V-ATN-5, V-ATN-6. -/
theorem test_attnCmdreq_busy :
    [attended (requested drive0 (Vector.replicate 4 0) 0) 0x01 (·.blk.fault),
     attended (executing .p1 #v[0x4001, 1, 5, 0] drive0) 0x01 (·.blk.fault),
     attended { stateZ with blk := { stateZ.blk with resetPending := true } } 0xE1 (·.blk.fault)] =
      List.replicate 3 (some (some .commandWhileBusy)) := by decide +kernel

/-- V-ATN-12, V-ATN-13: an end of interrupt with any device code. -/
theorem test_attnEoi :
    attended stateZ 0xE2 (·.ext.calls) = some [.irqLower 14] ∧
    attended { stateZ with blk := { stateZ.blk with status := 0x09, irqInProgress := true, irqLatch := true } } 0x22
      (fun t => (t.blk.status, t.blk.irqInProgress, t.blk.irqLatch)) = some (0x08, false, false) := by decide +kernel

/-- V-ATN-14. -/
theorem test_attnReset :
    attended stateZ 0xE4 (fun t => (t.blk.resetPending, t.blk.clock, t.blk.status)) =
      some (true, .armed stateZ.params.tReset, 0x10) := by decide +kernel

/-- V-ATN-7, V-ATN-9, V-ATN-10, V-ATN-11. -/
theorem test_attnBad :
    [attended stateZ 0x41 (·.blk.fault), attended stateZ 0x04 (·.blk.fault), attended stateZ 0xE3 (·.blk.fault),
     attended stateZ 0x00 (·.blk.fault)] =
      some (some .badAttentionDevice) :: List.replicate 3 (some (some .badAttentionRequest)) := by decide +kernel

/-- L1.8, V-IRQ-5: the range check passes at its boundary. -/
theorem test_read_setup :
    fired (executing .p0 #v[0x4001, 0x0001, 0x03E7, 0x0000] drive0)
      (fun t => (t.blk.status, t.blk.irqStatus, t.blk.phase, t.blk.rba, t.blk.sectorCount)) =
      some (0x23, 0x0B, .p1, 999, 1) := by decide +kernel

/-- L1.8, V-RD-3: the range check fails past its boundary, after the loads. -/
theorem test_read_range :
    fired (executing .p0 #v[0x4001, 0x0001, 0x03E8, 0x0000] drive0)
      (fun t => (resolution t, t.blk.rba, t.blk.sectorCount)) =
      some ((failure 0x0901 0x0E01 0x0007, 0x09, 0x0C, .idle), 1000, 1) := by decide +kernel

/-- V-WR-6: an absent drive. -/
theorem test_write_absent :
    fired (executing .p0 #v[0x4022, 1, 0, 0] drive1) resolution =
      some (failure 0x0922 0x0C11 0x000B, 0x09, 0x2C, .idle) := by decide +kernel

/-- A state in the last phase of a command, with the RBA past the last sector moved. -/
def completing (w : Word) (t : Target) (rba : BitVec 32) : State :=
  let s := executing .p2 #v[w, 0, 0, 0] t
  { s with blk := { s.blk with rba := rba } }

/-- V-WR-2: the completion report. -/
theorem test_write_completion :
    fired (completing 0x4002 drive0 11) resolution =
      some ([0x0702, 0, 0x1900, 0, 0x000A, 0x0000, 0], 0x09, 0x01, .idle) := by decide +kernel

/-- V-WR-4. -/
theorem test_writeVerify : fired (completing 0x4004 drive0 4) reported = some [0x0704, 0, 0x1900, 0, 0x0003, 0, 0] := by
  decide +kernel

/-- V-RV-2. -/
theorem test_readVerify_range :
    fired (executing .p0 #v[0x4003, 0x0002, 0x03E7, 0x0000] drive0) reported = some (failure 0x0903 0x0E01 0x0007) := by
  decide +kernel

/-- V-SK-1: the last-processed address of RBA 0. -/
theorem test_seek_completion :
    fired (completing 0x0005 drive0 0) reported = some [0x0705, 0, 0x1900, 0, 0xFFFF, 0xFFFF, 0] := by decide +kernel

/-- V-SK-3: the stored RBA and count are checked. -/
theorem test_seek_range :
    (let s := executing .p0 #v[0x0005, 0, 0, 0] drive0
     fired { s with blk := { s.blk with rba := 1000, sectorCount := 1 } } reported) =
      some (failure 0x0905 0x0E01 0x0007) := by decide +kernel

/-- V-PK-1. -/
theorem test_parkHeads :
    fired (completing 0x0006 drive0 0) resolution =
      some ([0x0706, 0, 0x1900, 0, 0xFFFF, 0xFFFF, 0], 0x09, 0x01, .idle) := by decide +kernel

/-- V-PK-2. -/
theorem test_parkHeads_adapter :
    fired (executing .p0 #v[0x00E6, 0, 0, 0] adapter) resolution =
      some (failure 0x09E6 0x0F03 0x0002, 0x09, 0xEC, .idle) := by decide +kernel

/-- V-FU-1: P0, and the call of P1. -/
theorem test_formatUnit :
    fired (executing .p0 #v[0x0016, 0x0011, 0, 0] drive0)
      (fun t => (t.blk.rba, t.blk.sectorCount, t.blk.status, t.blk.phase, t.ext.calls)) =
      some (1000, 0x11, 0x20, .p1, []) ∧
    fired (executing .p1 #v[0x0016, 0x0011, 0, 0] drive0) (fun t => (t.ext.calls, t.blk.phase)) =
      some ([.storageZero .drive0 0 1001 .ok], .p2) := by decide +kernel

/-- V-FP-1. -/
theorem test_formatPrepare :
    (let s := completing 0x0037 drive1 99
     fired { s with drive1 := { Drive.created0 with lastSector := 99 } } reported) =
      some [0x0737, 0, 0x1900, 0, 0x0062, 0x0000, 0] := by decide +kernel

/-- V-GDS-1. -/
theorem test_getDeviceStatus :
    fired (executing .p0 #v[0x0008, 0, 0, 0] drive0) resolution =
      some ([0x0908, 0, 0x1900, 0, 0, 0, 0, 0, 0], 0x09, 0x01, .idle) := by decide +kernel

/-- V-GDS-2, V-FLT-2: a pending interrupt; the clock stays as it was. -/
theorem test_getDeviceStatus_pending :
    (let s := executing .p0 #v[0x0008, 0, 0, 0] drive0
     fired { s with blk := { s.blk with irqInProgress := true } } (fun t => (t.blk.fault, t.blk.clock))) =
      some (some .irqAlreadyPending, .armed 1) := by decide +kernel

/-- L1.2. -/
theorem test_getDeviceConfigAdapter :
    fired (executing .p0 #v[0x00E9, 0, 0, 0] adapter) resolution =
      some ([0x06E9, 0x0000, 0x3200, 0x0000, 0x0000, 0x0000], 0x09, 0xE1, .idle) := by decide +kernel

/-- V-GDC-3, V-GDC-4. -/
theorem test_getDeviceConfigDrive :
    fired (executing .p0 #v[0x0009, 0, 0, 0] drive0) reported =
      some [0x0609, 0x0010, 0x03E9, 0x0000, 0x000D, 0x070B] ∧
    fired (executing .p0 #v[0x0029, 0, 0, 0] drive1) reported = some (failure 0x0929 0x0C11 0x000B) := by decide +kernel

/-- V-GPI-2, V-GPI-3. -/
theorem test_getPositionInfo :
    (let s := executing .p0 #v[0x00EA, 0, 0, 0] adapter
     fired { s with blk := { s.blk with cfg := #v[0xFF, 0xDD, 0x0D, 0, 0x34, 0, 0, 0x12] } } reported) =
      some [0x05EA, 0xDDFF, 0x000D, 0x0034, 0x1200] ∧
    fired (executing .p0 #v[0x000A, 0, 0, 0] drive0) reported = some (failure 0x090A 0x0F03 0x0002) := by decide +kernel

/-- V-DG-1, V-DG-2. -/
theorem test_diagnostic :
    fired (executing .p0 #v[0x00F2, 0, 0, 0] adapter) resolution = some ([0x02F2, 0x0000], 0x09, 0xE1, .idle) ∧
    fired (executing .p0 #v[0x0012, 0, 0, 0] drive0) reported = some (failure 0x0912 0x0F03 0x0002) := by decide +kernel

/-- V-SB-2, V-SB-4: 257 sectors fault, and none posts transfer-ready. -/
theorem test_sectorBuffer_setup :
    fired (executing .p0 #v[0x00F0, 0x0101, 0, 0] adapter) (·.blk.fault) = some (some .sectorBufferCount) ∧
    fired (executing .p0 #v[0x00F0, 0x0000, 0, 0] adapter) (fun t => (t.blk.irqStatus, t.blk.phase)) = some (0xEB, .p1) := by
  decide +kernel

/-- V-SB-4, V-SB-5: the completion without a report, and a drive. -/
theorem test_sectorBuffer_completion :
    fired (executing .p2 #v[0x00F1, 0, 0, 0] adapter) resolution = some ([], 0x01, 0xE1, .idle) ∧
    fired (executing .p0 #v[0x0030, 1, 0, 0] drive1) resolution =
      some (failure 0x0930 0x0F03 0x0002, 0x09, 0x2C, .idle) := by decide +kernel

/-- V-UN-1 to V-UN-4. -/
theorem test_unrecognized :
    fired (executing .p0 #v[0x0007, 0, 0, 0] drive0) resolution = some (failure 0x0907 0x0F03 0x0002, 0x09, 0x0C, .idle) ∧
    fired (executing .p0 #v[0x00FF, 0, 0, 0] adapter) resolution = some (failure 0x09FF 0x0F03 0x0002, 0x09, 0xEC, .idle) ∧
    fired (executing .p0 #v[0x0020, 0, 0, 0] drive1) resolution = some (failure 0x0920 0x0F03 0x0002, 0x09, 0x2C, .idle) ∧
    (let s := executing .p0 #v[0x000B, 0, 0, 0] drive0
     fired { s with blk := { s.blk with irqInProgress := true } } (·.blk.fault)) = some none := by decide +kernel

/-- A data-movement firing with one sector to move, its last two words left. -/
def nearEnd (w : Word) (t : Target) : State :=
  let s := executing .p1 #v[w, 1, 5, 0] t
  { s with blk := { s.blk with dataPos := 254, rba := 5, sectorCount := 1 } }

/-- V-RD-7: a firing that is refused keeps the word under the cursor, and fetches nothing inside a sector. -/
theorem test_read_suspends :
    (let s := nearEnd 0x4001 drive0
     fired { s with
       blk := { s.blk with dataBuf := s.blk.dataBuf.set 254 0x05FE }, ext := { s.ext with pushAnswers := [.ok, .noData] } }
       (fun t => (t.blk.dataPos, t.blk.clock, t.blk.phase, t.ext.calls))) =
      some (255, .armed stateZ.params.tBase, .p1, [.dmaPush 3 0 .noData, .dmaPush 3 0x05FE .ok]) := by decide +kernel

/-- V-RD-7: the end of the phase, where the time is 0 and the command stalls (R204, R471). -/
theorem test_read_ends :
    (let s := nearEnd 0x4001 drive0
     fired { s with ext := { s.ext with pushAnswers := [.ok, .ok] } }
       (fun t => (t.blk.dataPos, t.blk.sectorPos, t.blk.rba, t.blk.clock, t.blk.phase, t.blk.status))) =
      some (0, 1, 6, .disarmed, .p2, 0x20) := by decide +kernel

/-- V-WR-2: the sector is stored, and the cursors advance. -/
theorem test_write_stores :
    (let s := nearEnd 0x4002 drive0
     fired { s with ext := { s.ext with pullAnswers := [.word 0, .word 0x00FF] } }
       (fun t => (t.ext.calls.head?, t.blk.rba, t.blk.sectorPos, t.blk.phase))) =
      some (some (.storageWrite .drive0 5 .ok), 6, 1, .p2) := by decide +kernel

/-- V-BO-1: the low byte of a word first. -/
theorem test_byteOrder :
    Memory.store [] 2560 (wordBytes [0x1234, 0xABCD]) = [(2560, 0x34), (2561, 0x12), (2562, 0xCD), (2563, 0xAB)] ∧
    Memory.readWord [(2562, 0xCD), (2563, 0xAB)] 2562 = 0xABCD := by decide +kernel

/-- A store keeps the canonical form: the absent value is not listed, and the cells around it stay. -/
theorem test_store :
    Memory.store [(3, 9), (5, 8), (6, 7)] 4 [1, 0] = [(3, 9), (4, 1), (6, 7)] ∧
    Memory.zero [(3, 9), (5, 8), (6, 7)] 4 2 = [(3, 9), (6, 7)] := by decide +kernel

/-- V-RD-6: past the end of the drive, before any storage call. -/
theorem test_read_pastEnd :
    (let s := executing .p1 #v[0x4001, 1, 4, 0] drive0
     fired { s with blk := { s.blk with rba := 4, sectorCount := 1 }, drive0 := { s.drive0 with totalSectors := 4 } }
       (fun t => (t.blk.fault, t.ext.calls))) = some (some .pastEndOfDrive, []) := by decide +kernel

/-- V-SB-1: the end of the phase. -/
theorem test_sectorBufferWrite_ends :
    (let s := nearEnd 0x00F0 adapter
     fired { s with ext := { s.ext with pullAnswers := [.word 0x0102, .word 0x0304] } }
       (fun t => (t.blk.sectorPos, t.blk.phase, t.blk.clock))) =
      some (1, .p2, .armed stateZ.params.tBase) := by decide +kernel

/-- V-SB-6: a refused word. -/
theorem test_sectorBufferRead_suspends :
    (let s := nearEnd 0x00F1 adapter
     fired { s with ext := { s.ext with pushAnswers := [.ok, .noData] } }
       (fun t => (t.blk.dataPos, t.blk.sectorPos, t.blk.clock))) = some (255, 0, .armed stateZ.params.tBase) := by decide +kernel

/-- V-RST-2: a pending reset is completed instead of the command; the data cursors are kept. -/
theorem test_reset :
    (let s := nearEnd 0x4001 drive0
     fired { s with blk := { s.blk with resetPending := true } }
       (fun t => (resolution t, t.blk.rba, t.blk.dataPos, t.blk.resetPending))) =
      some (([0x01EA], 0x09, 0xEA, .idle), 5, 254, false) := by decide +kernel

/-- A call of the configuration mechanism, as a step. -/
def configured {α : Type} (s : State) (op : BitVec 5) (v : Byte) (f : State → α) : Option α :=
  after (step (s.scheduled (.config op v))) f

/-- V-CFG-1, V-CFG-2. -/
theorem test_cfgWrite :
    configured State.reset 0b01000 0x12 (·.blk.cfg) = some State.reset.blk.cfg ∧
    configured State.reset 0b01010 0x0D (fun t => (t.blk.dmaChannel, t.blk.ioEnabled)) = some (3, true) := by decide +kernel

/-- V-CFG-3 to V-CFG-6. -/
theorem test_cfgWrite_channel :
    configured stateZ 0b01010 0x09 (fun t => (t.blk.dmaChannel, t.blk.ioEnabled)) = some (3, true) ∧
    configured stateZ 0b01010 0x3D (fun t => (t.blk.dmaChannel, t.blk.ioEnabled)) = some (3, true) ∧
    configured stateZ 0b01010 0x1C (fun t => (t.blk.dmaChannel, t.blk.ioEnabled)) = some (7, false) ∧
    configured stateZ 0b01101 0xAA (fun t => (t.blk.cfg[5], t.blk.dmaChannel, t.blk.ioEnabled)) = some (0xAA, 3, true) := by
  decide +kernel

/-- V-CFG-7. -/
theorem test_cfgRead :
    configured stateZ 0b00001 0 (·.ext.result) = some (.byte 0xDD) ∧
    configured stateZ 0b10000 0 (·.ext.result) = some (.bit true) := by decide +kernel

/-- V-CFG-8. -/
theorem test_cfgReset :
    configured stateZ 0b11000 0 (fun t => (t.blk.cfg[2], t.blk.dmaChannel, t.blk.ioEnabled)) = some (0, 0, false) := by
  decide +kernel

/-- V-FLT-1: a faulted instance takes no step. -/
theorem test_halted :
    step { stateZ with blk := { stateZ.blk with fault := some .unwiredPort } } = .fault (.halted .unwiredPort) := rfl

/-- The table's numbers: a port descriptor, an attention byte and a command word, run as the first instruction after reset. -/
theorem test_withFetchWord :
    after (step (State.reset.withFetchWord 8 0x02)) (·.ext.result) = some (.byte 0x00) ∧
    after (step (State.reset.withFetchWord 8 0xE4)) (·.blk.resetPending) = some true ∧
    after (step (State.reset.withFetchWord 16 0x00E9)) reported =
      some [0x06E9, 0x0000, 0x3200, 0x0000, 0x0000, 0x0000] := by decide +kernel

/-! Witnesses: for every statement with hypotheses, states and operands that meet them, at a boundary of each clause. -/

/-- The state Z keeps the invariant. -/
theorem inv_stateZ : stateZ.Inv := by
  refine ⟨?_, rfl, rfl⟩
  constructor
  · decide
  · decide
  · decide
  · decide
  · decide
  · decide
  · exact fun h => absurd rfl h
  · decide
  · decide
  · exact fun h => absurd h (by decide)
  · decide
  · decide
  · decide
  · decide
  · decide
  · exact ⟨rfl, rfl⟩
  · decide
  · decide

/-- The state Z with a part of the outside. -/
theorem inv_outside (e : External) : State.Inv { stateZ with ext := e } := ⟨inv_stateZ.block, rfl, rfl⟩

theorem witness_StatusReadReturnsStatus : stateZ.blk.ioEnabled = true ∧ stateZ.Inv := ⟨rfl, inv_stateZ⟩

theorem witness_InterruptStatusReadClearsIrq : stateZ.blk.ioEnabled = true := rfl

/-- An empty queue; a word before the last; the last word. -/
theorem witness_StatusInterfaceReadPops :
    (stateZ.blk.ioEnabled = true ∧ stateZ.blk.statusLen ≤ stateZ.blk.statusPos) ∧
    ((draining 0).blk.ioEnabled = true ∧ (draining 0).blk.statusPos + 1 < (draining 0).blk.statusLen) ∧
    ((draining 1).blk.ioEnabled = true ∧ (draining 1).blk.statusPos + 1 = (draining 1).blk.statusLen) := by decide

/-- A queue of one word and of 256. -/
theorem witness_StatusQueueDrainsInOrder :
    ∀ n ∈ [1, 256], let s := { stateZ with blk := { stateZ.blk with statusLen := n } }
      s.blk.ioEnabled = true ∧ s.blk.statusPos = 0 ∧ 0 < s.blk.statusLen ∧ s.blk.statusLen ≤ 256 ∧
        s.blk.statusLen - 1 < s.blk.statusLen := by decide

/-- A falling edge and a rising edge of `RESET`; a change of `IRQ_ENA` either way with the latch set. -/
theorem witness_ControlWriteEffect :
    let s (c : Byte) := { stateZ with blk := { stateZ.blk with ctrl := c, irqLatch := true } }
    (∀ c, (s c).blk.ioEnabled = true) ∧
    ((s 0x80).blk.ctrl.getLsbD 7 && !(0x00 : Byte).getLsbD 7) = true ∧
    (!(s 0x00).blk.ctrl.getLsbD 7 && (0x80 : Byte).getLsbD 7) = true ∧
    ((s 0x00).blk.irqLatch = true ∧ (s 0x00).blk.ctrl.getLsbD 0 = false ∧ (0x01 : Byte).getLsbD 0 = true) ∧
    ((s 0x01).blk.irqLatch = true ∧ (s 0x01).blk.ctrl.getLsbD 0 = true ∧ (0x00 : Byte).getLsbD 0 = false) := by
  refine ⟨fun _ => rfl, ?_⟩
  decide

/-- No request; a full queue; word 2 of 4; the last word with another target; the last word with the target requested. -/
theorem witness_CommandWordWrite :
    stateZ.blk.ioEnabled = true ∧ stateZ.blk.cmdReqInProgress = false ∧
    (let s := requested drive0 (Vector.replicate 4 0) 4
     s.blk.ioEnabled = true ∧ s.blk.cmdReqInProgress = true ∧ 4 ≤ s.blk.cmdPos) ∧
    (let s := requested drive0 #v[0x4001, 0, 0, 0] 1
     s.blk.cmdReqInProgress = true ∧ s.blk.cmdPos + 1 ≠ (if (s.blk.cmdQueue.getD 0 0).getLsbD 14 then 4 else 2)) ∧
    (let s := requested drive0 #v[0x0021, 0, 0, 0] 1
     s.blk.cmdPos + 1 = 2 ∧ (s.blk.cmdQueue.getD 0 0).extractLsb' 5 3 ≠ s.blk.cmdDev.code) ∧
    (let s := requested drive0 #v[0x4001, 0, 0, 0] 3
     s.blk.cmdPos + 1 = 4 ∧ (s.blk.cmdQueue.getD 0 0).extractLsb' 5 3 = s.blk.cmdDev.code) := by decide

theorem witness_UnwiredAccessFaults :
    stateZ.blk.ioEnabled = true ∧
    ∀ i ∈ [Instr.unwiredRB0, .unwiredRW7, .unwiredWB0 0x12, .unwiredWW7 0x1234],
      i ∈ unwiredByteReads ++ unwiredWordReads ++ unwiredWrites 0x12 0x1234 := by decide

theorem witness_UnboundAccessReachesNothing :
    State.reset.blk.ioEnabled = false ∧ Instr.wrCir 0x1234 ∈ hostWrites 0x12 0x1234 0xA ∧
    Instr.attnCmdreqD1 ∈ hostWrites 0x12 0x1234 0xA ∧ Instr.unwiredRB7 ∈ [.rdStatus, .rdIsr] ++ unwiredByteReads ∧
    Instr.unwiredRW7 ∈ [.rdSir] ++ unwiredWordReads := by decide

/-- The device codes on either side of the targets, and every request code of the statement. -/
theorem witness_AttentionWriteByDeviceThenRequest :
    stateZ.blk.ioEnabled = true ∧
    (∀ v ∈ [(0x41 : Byte), 0xC1],
      v.extractLsb' 5 3 ≠ 7#3 ∧ v.extractLsb' 5 3 ≠ 0#3 ∧ v.extractLsb' 5 3 ≠ 1#3) ∧
    (∀ d ∈ [(0x00 : Byte), 0x20, 0xE0],
      (d.extractLsb' 5 3 = 7#3 ∨ d.extractLsb' 5 3 = 0#3 ∨ d.extractLsb' 5 3 = 1#3) ∧
      (d ||| 0x01).extractLsb' 0 4 = 1#4 ∧ (d ||| 0x02).extractLsb' 0 4 = 2#4 ∧ (d ||| 0x04).extractLsb' 0 4 = 4#4 ∧
      ∀ r ∈ [(0x00 : Byte), 0x03, 0x05, 0x0F], (d ||| r).extractLsb' 0 4 ≠ 1#4 ∧ (d ||| r).extractLsb' 0 4 ≠ 2#4 ∧
        (d ||| r).extractLsb' 0 4 ≠ 4#4) := by decide

/-- A state that takes the request, and one for each reason that it does not. -/
theorem witness_CommandRequestEffect :
    (Instr.attnCmdreqAD, adapter) ∈ commandRequests ∧ stateZ.blk.ioEnabled = true ∧
    ¬ (stateZ.blk.cmdReqInProgress = true ∨ stateZ.blk.phase ≠ .idle ∨ stateZ.blk.resetPending = true) ∧
    (requested drive0 (Vector.replicate 4 0) 0).blk.cmdReqInProgress = true ∧
    (executing .p0 #v[0x4001, 1, 5, 0] drive0).blk.phase ≠ .idle ∧
    { stateZ.blk with resetPending := true }.resetPending = true := by decide

theorem witness_EndOfInterruptClears : Instr.attnEoiD1 ∈ endsOfInterrupt ∧ stateZ.blk.ioEnabled = true := by decide

theorem witness_AttentionResetStartsReset :
    stateZ.blk.ioEnabled = true ∧ Instr.attnBadreqD1_4 ∈ [Instr.attnBadreqD0_4, .attnBadreqD1_4] := by decide

theorem witness_BadAttentionFaults :
    stateZ.blk.ioEnabled = true ∧ Instr.attnBaddev2 0 ∈ badDevices 0 ∧ Instr.attnBaddev6 0xF ∈ badDevices 0xF ∧
    Instr.attnBadreqAD_0 ∈ badRequests ∧ Instr.attnBadreqD1_F ∈ badRequests := by decide

theorem witness_PendingResetOverridesCommand :
    let s := executing .p1 #v[0x4001, 1, 5, 0] drive0
    let r := { s with blk := { s.blk with resetPending := true } }
    r.blk.clock ≠ .disarmed ∧ r.blk.resetPending = true ∧ Instr.unrecognized1F true 0 ∈ commands true 0 := by decide

/-- The clock disarmed, and armed with nothing to do. -/
theorem witness_IdleFiringOnlyDisarms :
    let s := { stateZ with blk := { stateZ.blk with clock := .armed 0 } }
    stateZ.blk.clock = .disarmed ∧ s.blk.clock ≠ .disarmed ∧ s.blk.resetPending = false ∧ s.blk.phase = .idle ∧
    Instr.read true 0 ∈ commands true 0 := by decide

theorem armed_clock : Clock.armed 1 ≠ .disarmed := by decide

theorem dma_enabled : (0x03 : Byte).getLsbD 1 = true := by decide

/-- A firing that runs the phase `p` of a block. -/
theorem executing_runs (p : Phase) (q : Vector Word 4) (t : Target) : (executing p q t).Runs p :=
  ⟨armed_clock, rfl, rfl⟩

/-- Phases P0, P1 and P2, for the adapter and for a drive. -/
theorem witness_WrongTargetClassNotSupported :
    (∀ p ∈ [Phase.p0, .p1, .p2], ∀ t ∈ [adapter, drive1],
      (executing p (Vector.replicate 4 0) t).Runs p ∧ p ≠ .idle ∧ (executing p (Vector.replicate 4 0) t).blk.cmdDev = t) ∧
    Instr.read true 7 ∈ dataPhaseCommands true 7 ∧ Instr.read true 7 ∈ driveCommands true 7 ∧
    Instr.diagnostic true 7 ∈ adapterCommands true 7 := by
  refine ⟨?_, by decide⟩
  intro p hp t _
  refine ⟨executing_runs _ _ _, ?_, rfl⟩
  rintro rfl
  simp at hp

/-- The absent drive 1 of the state Z, in each phase. -/
theorem witness_AbsentDriveReported :
    ∀ p ∈ [Phase.p0, .p1, .p2], let s := executing p (Vector.replicate 4 0) drive1
      s.Runs p ∧ p ≠ .idle ∧ s.blk.cmdDev = .drive .drive1 ∧ (s.drive .drive1).present = false ∧
      Instr.formatUnit true 1 ∈ driveCommands true 1 ++ [.getDeviceConfigDrive0 true, .getDeviceConfigDrive1 true] ∧
      Instr.formatUnit true 1 ∈ dataPhaseCommands true 1 := by
  intro p hp
  refine ⟨executing_runs _ _ _, ?_, rfl, rfl, by decide, by decide⟩
  rintro rfl
  simp at hp

theorem witness_UnrecognizedCodeNotSupported :
    (executing .p0 #v[0x0000, 0, 0, 0] drive1).Runs .p0 ∧ Phase.p0 ≠ .idle ∧
    Instr.unrecognized00 false 1 ∈ unrecognizedCommands false 1 := ⟨executing_runs _ _ _, by decide, by decide⟩

/-- No word, and as many as the queue holds. -/
theorem witness_ReportWritesQueue : ([] : List Word).length ≤ 256 ∧ (List.replicate 256 (0x1234 : Word)).length ≤ 256 :=
  ⟨Nat.zero_le _, Nat.le_of_eq List.length_replicate⟩

theorem witness_TransferSetup :
    (executing .p0 #v[0x4001, 1, 999, 0] drive0).Runs .p0 ∧
    Instr.read true 0 ∈ [Instr.read true 0, .write true 0, .writeVerify true 0] := ⟨executing_runs _ _ _, by decide⟩

theorem witness_ReadVerifySetup : (executing .p0 #v[0x4003, 4, 100, 0] drive0).Runs .p0 := executing_runs _ _ _

theorem witness_SeekSetup : (executing .p0 #v[0x0005, 0, 0, 0] drive0).Runs .p0 := executing_runs _ _ _

theorem witness_ParkHeadsSetup : (executing .p0 #v[0x0006, 0, 0, 0] drive0).Runs .p0 := executing_runs _ _ _

theorem witness_FormatUnitSetup : (executing .p0 #v[0x0016, 0x11, 0, 0] drive0).Runs .p0 := executing_runs _ _ _

theorem witness_FormatPreparePhases :
    (executing .p0 #v[0x0037, 0, 0, 0] drive1).Runs .p0 ∧ (executing .p1 #v[0x0037, 0, 0, 0] drive1).Runs .p1 ∧
    (executing .p2 #v[0x0037, 0, 0, 0] drive1).Runs .p2 :=
  ⟨executing_runs _ _ _, executing_runs _ _ _, executing_runs _ _ _⟩

/-- The present drive 0 of the state Z. -/
theorem executing_addresses (p : Phase) (q : Vector Word 4) : (executing p q drive0).Addresses .drive0 := ⟨rfl, rfl⟩

/-- L1.8: the last block that passes the check, and the first that does not. -/
theorem witness_RangeCheckBoundary :
    (let s := executing .p0 #v[0x4001, 1, 999, 0] drive0
     s.Runs .p0 ∧ s.Addresses .drive0 ∧
     s.loaded.blk.rba.toNat + s.loaded.blk.sectorCount.toNat ≤ (s.drive .drive0).lastSector.toNat) ∧
    (let s := executing .p0 #v[0x4001, 1, 1000, 0] drive0
     s.Runs .p0 ∧ s.Addresses .drive0 ∧
     (s.drive .drive0).lastSector.toNat < s.loaded.blk.rba.toNat + s.loaded.blk.sectorCount.toNat) :=
  ⟨⟨executing_runs _ _ _, executing_addresses _ _, by decide⟩, ⟨executing_runs _ _ _, executing_addresses _ _, by decide⟩⟩

/-- A drive, and the adapter. -/
theorem witness_DataPhaseWaitsForDmaEnable :
    (let s := executing .p1 #v[0x4001, 1, 5, 0] drive0
     let t := { s with blk := { s.blk with ctrl := 0x01 } }
     t.Runs .p1 ∧ t.blk.ctrl.getLsbD 1 = false ∧ t.Addresses .drive0) ∧
    (let s := executing .p1 #v[0x00F0, 1, 0, 0] adapter
     let t := { s with blk := { s.blk with ctrl := 0x01 } }
     t.Runs .p1 ∧ t.blk.ctrl.getLsbD 1 = false ∧ t.blk.cmdDev = .adapter) :=
  ⟨⟨⟨armed_clock, rfl, rfl⟩, by decide, ⟨rfl, rfl⟩⟩, ⟨armed_clock, rfl, rfl⟩, by decide, rfl⟩

/-- A data-movement firing on drive 0: `count` sectors from `rba` on, the cursor in the data buffer at `pos`. -/
def moving (rba count : Nat) (pos : Nat) (storage : List StorageAnswer) (push : List PushAnswer) (pull : List PullAnswer) :
    State :=
  let s := executing .p1 #v[0x4001, BitVec.ofNat 16 count, BitVec.ofNat 16 rba, 0] drive0
  { s with
    blk := { s.blk with rba := BitVec.ofNat 32 rba, sectorCount := BitVec.ofNat 16 count, dataPos := pos }
    ext := { s.ext with storageAnswers := storage, pushAnswers := push, pullAnswers := pull } }

theorem moving_moves (rba count pos : Nat) (storage : List StorageAnswer) (push : List PushAnswer) (pull : List PullAnswer) :
    (moving rba count pos storage push pull).MovesDrive .drive0 :=
  ⟨⟨armed_clock, rfl, rfl⟩, ⟨rfl, rfl⟩, dma_enabled⟩

/-- No sector, and the last sector of the drive. -/
theorem witness_ReadDataPhaseMovesSectors :
    ∀ n ∈ [0, 1], let s := moving 1000 n 0 (List.replicate n .ok ++ []) (List.replicate (256 * n) .ok ++ []) []
      s.MovesDrive .drive0 ∧ s.blk.dataPos = 0 ∧ s.blk.sectorPos.toNat ≤ s.blk.sectorCount.toNat ∧
      s.blk.sectorCount.toNat - s.blk.sectorPos.toNat = n ∧ s.blk.rba.toNat + n ≤ (s.drive .drive0).totalSectors.toNat ∧
      s.ext.storageAnswers = List.replicate n .ok ++ [] ∧ s.ext.pushAnswers = List.replicate (256 * n) .ok ++ [] := by
  intro n hn
  refine ⟨moving_moves .., rfl, Nat.zero_le _, ?_, ?_, rfl, rfl⟩ <;> revert n <;> decide

/-- The first word of a sector refused, and the last one of the second. -/
theorem witness_ReadSuspendsAtRefusedWord :
    ∀ x ∈ [(0, 0), (1, 255)],
      let s := moving 999 2 0 (List.replicate (x.1 + 1) .ok ++ []) (List.replicate (256 * x.1 + x.2) .ok ++ .noData :: []) []
      s.MovesDrive .drive0 ∧ s.blk.dataPos = 0 ∧ x.1 < s.blk.sectorCount.toNat - s.blk.sectorPos.toNat ∧ x.2 < 256 ∧
      s.blk.rba.toNat + (s.blk.sectorCount.toNat - s.blk.sectorPos.toNat) ≤ (s.drive .drive0).totalSectors.toNat ∧
      s.ext.storageAnswers = List.replicate (x.1 + 1) .ok ++ [] ∧
      s.ext.pushAnswers = List.replicate (256 * x.1 + x.2) .ok ++ .noData :: [] := by
  intro x hx
  refine ⟨moving_moves .., rfl, ?_, ?_, ?_, rfl, rfl⟩ <;> revert x <;> decide

/-- A resumed sector refused at its next word, and at its last. -/
theorem witness_ReadSuspendsAtRefusedWord_resumed :
    ∀ x ∈ [(1, 0), (1, 254), (255, 0)],
      let s := moving 1000 1 x.1 [] (List.replicate x.2 .ok ++ .noData :: []) []
      s.MovesDrive .drive0 ∧ 0 < s.blk.dataPos ∧ s.blk.dataPos + x.2 < 256 ∧
      s.blk.sectorPos.toNat < s.blk.sectorCount.toNat ∧ s.ext.pushAnswers = List.replicate x.2 .ok ++ .noData :: [] := by
  intro x hx
  refine ⟨moving_moves .., ?_, ?_, ?_, rfl⟩ <;> revert x <;> decide

/-- The cursor at the second word and at the last. -/
theorem witness_ReadResumesAtCursor :
    ∀ p ∈ [1, 255], let s := moving 1000 1 p [] (List.replicate (256 - p) .ok ++ []) []
      s.MovesDrive .drive0 ∧ 0 < s.blk.dataPos ∧ s.blk.dataPos < 256 ∧ s.blk.sectorPos.toNat < s.blk.sectorCount.toNat ∧
      s.blk.rba.toNat + (s.blk.sectorCount.toNat - s.blk.sectorPos.toNat) ≤ (s.drive .drive0).totalSectors.toNat ∧
      s.blk.fault = none ∧ s.ext.pushAnswers = List.replicate (256 - s.blk.dataPos) .ok ++ [] := by
  intro p hp
  refine ⟨moving_moves .., ?_, ?_, ?_, ?_, rfl, rfl⟩ <;> revert p <;> decide

/-- The words of `n` sectors. -/
def someWords (n : Nat) : List Word := List.replicate n 0

theorem someWords_take (n p : Nat) (hp : p ≤ n) (h : p ≤ 256) :
    (someWords n).take p = (Vector.replicate 256 (0 : Word)).toList.take p := by
  rw [someWords, Vector.toList_replicate, List.take_replicate, List.take_replicate, Nat.min_eq_left hp, Nat.min_eq_left h]

/-- No sector; a sector from its first word on; a sector of which only the last word is missing. -/
theorem witness_WriteDataPhaseStoresSectors :
    ∀ x ∈ [(0, 0), (1, 0), (1, 255)],
      let ws := someWords (256 * x.1)
      let s := moving 1000 x.1 x.2 (List.replicate x.1 .ok ++ []) [] ((ws.drop x.2).map PullAnswer.word ++ [])
      s.MovesDrive .drive0 ∧ s.blk.dataPos < 256 ∧ (x.1 = 0 → s.blk.dataPos = 0) ∧
      s.blk.sectorPos.toNat ≤ s.blk.sectorCount.toNat ∧ s.blk.sectorCount.toNat - s.blk.sectorPos.toNat = x.1 ∧
      s.blk.rba.toNat + x.1 ≤ (s.drive .drive0).totalSectors.toNat ∧ ws.length = 256 * x.1 ∧
      ws.take s.blk.dataPos = s.blk.dataBuf.toList.take s.blk.dataPos ∧
      s.ext.storageAnswers = List.replicate x.1 .ok ++ [] ∧
      s.ext.pullAnswers = (ws.drop s.blk.dataPos).map PullAnswer.word ++ [] := by
  intro x hx
  refine ⟨moving_moves .., ?_, ?_, Nat.zero_le _, ?_, ?_, by simp [someWords], ?_, rfl, rfl⟩
  · revert x
    decide
  · revert x
    decide
  · revert x
    decide
  · revert x
    decide
  · have h : x.2 ≤ 256 * x.1 ∧ x.2 ≤ 256 := by
      revert x
      decide
    exact someWords_take _ _ h.1 h.2

/-- The first word missing; one word after a sector and the last word of the next missing. -/
theorem witness_WriteSuspendsAtMissingWord :
    ∀ x ∈ [(0, 0, 0), (0, 255, 255), (1, 255, 0)],
      let ws := someWords (256 * x.1 + x.2.1)
      let s := moving 999 2 x.2.2 (List.replicate x.1 .ok ++ []) [] ((ws.drop x.2.2).map PullAnswer.word ++ .noData :: [])
      s.MovesDrive .drive0 ∧ s.blk.dataPos ≤ ws.length ∧ s.blk.dataPos < 256 ∧
      x.1 < s.blk.sectorCount.toNat - s.blk.sectorPos.toNat ∧ x.2.1 < 256 ∧
      s.blk.rba.toNat + (s.blk.sectorCount.toNat - s.blk.sectorPos.toNat) ≤ (s.drive .drive0).totalSectors.toNat ∧
      ws.length = 256 * x.1 + x.2.1 ∧ ws.take s.blk.dataPos = s.blk.dataBuf.toList.take s.blk.dataPos ∧
      s.ext.storageAnswers = List.replicate x.1 .ok ++ [] ∧
      s.ext.pullAnswers = (ws.drop s.blk.dataPos).map PullAnswer.word ++ .noData :: [] := by
  intro x hx
  have h : x.2.2 ≤ 256 * x.1 + x.2.1 ∧ x.2.2 < 256 := by
    revert x
    decide
  refine ⟨moving_moves .., ?_, h.2, ?_, ?_, ?_, by simp [someWords], someWords_take _ _ h.1 (Nat.le_of_lt h.2), rfl, rfl⟩
  · rw [someWords, List.length_replicate]
    exact h.1
  · revert x
    decide
  · revert x
    decide
  · revert x
    decide

/-- The end of the drive at the first sector of a firing and at the second, the data buffer empty, all but full and full. -/
theorem witness_PastEndOfDriveFaults :
    ∀ x ∈ [(0, 0), (0, 256), (1, 0), (1, 255)],
      let ws := someWords (256 * (x.1 + 1))
      let s := moving (1001 - x.1) 2 x.2 (List.replicate x.1 .ok ++ []) (List.replicate (256 * x.1) .ok ++ [])
        ((ws.drop x.2).map PullAnswer.word ++ [])
      s.MovesDrive .drive0 ∧ x.1 < s.blk.sectorCount.toNat - s.blk.sectorPos.toNat ∧
      (s.drive .drive0).totalSectors.toNat ≤ s.blk.rba.toNat + x.1 ∧
      (0 < x.1 → s.blk.rba.toNat + x.1 ≤ (s.drive .drive0).totalSectors.toNat) ∧
      s.ext.storageAnswers = List.replicate x.1 .ok ++ [] ∧ s.ext.pushAnswers = List.replicate (256 * x.1) .ok ++ [] ∧
      (x.2 = 0 → s.blk.dataPos = 0) ∧ s.blk.dataPos ≤ 256 ∧ ws.length = 256 * (x.1 + 1) ∧
      ws.take s.blk.dataPos = s.blk.dataBuf.toList.take s.blk.dataPos ∧
      s.ext.pullAnswers = (ws.drop s.blk.dataPos).map PullAnswer.word ++ [] := by
  intro x hx
  have h : x.2 ≤ 256 * (x.1 + 1) ∧ x.2 ≤ 256 := by
    revert x
    decide
  refine ⟨moving_moves .., ?_, ?_, ?_, rfl, rfl, fun h => h, h.2, by simp [someWords], someWords_take _ _ h.1 h.2, rfl⟩ <;>
    revert x <;> decide

/-- A failure that changes nothing, and one that changes a byte; at the first sector of a firing and at the second, which is
the last of the drive. -/
theorem witness_StorageFailureReported :
    ∀ found ∈ [([] : List Byte), [0xFF]], ∀ x ∈ [(0, 0), (0, 256), (1, 0), (1, 255)],
      let ws := someWords (256 * (x.1 + 1))
      let s := moving (1000 - x.1) 2 x.2 (List.replicate x.1 .ok ++ .fail found :: []) (List.replicate (256 * x.1) .ok ++ [])
        ((ws.drop x.2).map PullAnswer.word ++ [])
      s.Runs .p1 ∧ s.Addresses .drive0 ∧ s.blk.ctrl.getLsbD 1 = true ∧
      x.1 < s.blk.sectorCount.toNat - s.blk.sectorPos.toNat ∧
      s.blk.rba.toNat + x.1 < (s.drive .drive0).totalSectors.toNat ∧
      s.ext.storageAnswers = List.replicate x.1 .ok ++ .fail found :: [] ∧
      s.ext.pushAnswers = List.replicate (256 * x.1) .ok ++ [] ∧ (x.2 = 0 → s.blk.dataPos = 0) ∧ s.blk.dataPos ≤ 256 ∧
      ws.length = 256 * (x.1 + 1) ∧ ws.take s.blk.dataPos = s.blk.dataBuf.toList.take s.blk.dataPos ∧
      s.ext.pullAnswers = (ws.drop s.blk.dataPos).map PullAnswer.word ++ [] := by
  intro found _ x hx
  have h : x.2 ≤ 256 * (x.1 + 1) ∧ x.2 ≤ 256 := by
    revert x
    decide
  have h2 : x.1 < (BitVec.ofNat 16 2).toNat - (BitVec.ofNat 16 0).toNat ∧
      (BitVec.ofNat 32 (1000 - x.1)).toNat + x.1 < (BitVec.ofNat 32 1001).toNat := by
    revert x
    decide
  exact ⟨⟨armed_clock, rfl, rfl⟩, ⟨rfl, rfl⟩, dma_enabled, h2.1, h2.2, rfl, rfl, fun h => h, h.2, by simp [someWords],
    someWords_take _ _ h.1 h.2, rfl⟩

theorem witness_StorageFailureReported_formatUnit :
    let s := moving 1000 0 0 (.fail [0xFF] :: []) [] []
    s.Runs .p1 ∧ s.Addresses .drive0 ∧ s.ext.storageAnswers = .fail [0xFF] :: [] := ⟨⟨armed_clock, rfl, rfl⟩, ⟨rfl, rfl⟩, rfl⟩

theorem witness_FormatUnitZeroesStorage :
    let s := moving 1000 0 0 (.ok :: []) [] []
    s.Runs .p1 ∧ s.Addresses .drive0 ∧ s.ext.storageAnswers = .ok :: [] ∧
    1000 < (s.drive .drive0).lastSector.toNat + 1 := ⟨⟨armed_clock, rfl, rfl⟩, ⟨rfl, rfl⟩, rfl, by decide⟩

theorem witness_DriveCommandCompletion :
    (executing .p2 #v[0x4001, 1, 5, 0] drive0).Runs .p2 ∧ (executing .p2 #v[0x4001, 1, 5, 0] drive0).Addresses .drive0 ∧
    Instr.formatPrepare true 0 ∈ completingCommands true 0 := ⟨executing_runs _ _ _, executing_addresses _ _, by decide⟩

/-- The largest count that fits the sector buffer, and the smallest that does not. -/
theorem witness_SectorBufferSetup :
    (let s := executing .p0 #v[0x00F0, 256, 0, 0] adapter
     s.Runs .p0 ∧ s.blk.cmdDev = .adapter ∧ (s.blk.cmdWord 1).toNat ≤ 256) ∧
    (let s := executing .p0 #v[0x00F0, 257, 0, 0] adapter
     s.Runs .p0 ∧ s.blk.cmdDev = .adapter ∧ 256 < (s.blk.cmdWord 1).toNat) :=
  ⟨⟨executing_runs _ _ _, rfl, by decide⟩, ⟨executing_runs _ _ _, rfl, by decide⟩⟩

/-- A data-movement firing on the sector buffer: `count` sectors from sector `k` on, the cursor in the data buffer at `pos`. -/
def buffering (k count pos : Nat) (push : List PushAnswer) (pull : List PullAnswer) : State :=
  let s := executing .p1 #v[0x00F0, BitVec.ofNat 16 count, 0, 0] adapter
  { s with
    blk := { s.blk with
      sectorPos := BitVec.ofNat 16 k, sectorCount := BitVec.ofNat 16 count, dataPos := pos }
    ext := { s.ext with pushAnswers := push, pullAnswers := pull } }

theorem buffering_moves (k count pos : Nat) (push : List PushAnswer) (pull : List PullAnswer) :
    (buffering k count pos push pull).MovesBuffer := ⟨⟨armed_clock, rfl, rfl⟩, rfl, dma_enabled⟩

/-- No sector at the end of the buffer; its last sector, whole and but for the last word. -/
theorem witness_SectorBufferWriteFills :
    ∀ x ∈ [(256, 0, 0), (255, 1, 0), (255, 1, 255)],
      let ws := someWords (256 * x.2.1)
      let s := buffering x.1 256 x.2.2 [] ((ws.drop x.2.2).map PullAnswer.word ++ [])
      s.MovesBuffer ∧ s.blk.sectorCount.toNat - s.blk.sectorPos.toNat = x.2.1 ∧ s.blk.dataPos < 256 ∧
      (x.2.1 = 0 → s.blk.dataPos = 0) ∧ s.blk.sectorPos.toNat ≤ s.blk.sectorCount.toNat ∧ s.blk.sectorCount.toNat ≤ 256 ∧
      ws.length = 256 * x.2.1 ∧ ws.take s.blk.dataPos = s.blk.dataBuf.toList.take s.blk.dataPos ∧
      s.ext.pullAnswers = (ws.drop s.blk.dataPos).map PullAnswer.word ++ [] := by
  intro x hx
  have h : x.2.2 ≤ 256 * x.2.1 ∧ x.2.2 < 256 := by
    revert x
    decide
  refine ⟨buffering_moves .., ?_, h.2, ?_, ?_, (by decide : (BitVec.ofNat 16 256).toNat ≤ 256), by simp [someWords],
    someWords_take _ _ h.1 (Nat.le_of_lt h.2), rfl⟩ <;> revert x <;> decide

/-- The first word missing; but for one word a sector pulled; one word before the end of the buffer's last sector. -/
theorem witness_SectorBufferWriteFills_suspended :
    ∀ x ∈ [(255, 0, 0, 0), (255, 0, 255, 255), (254, 1, 255, 0), (254, 1, 0, 255)],
      let ws := someWords (256 * x.2.1 + x.2.2.1)
      let s := buffering x.1 256 x.2.2.2 [] ((ws.drop x.2.2.2).map PullAnswer.word ++ .noData :: [])
      s.MovesBuffer ∧ s.blk.dataPos ≤ ws.length ∧ s.blk.dataPos < 256 ∧
      x.2.1 < s.blk.sectorCount.toNat - s.blk.sectorPos.toNat ∧ x.2.2.1 < 256 ∧ s.blk.sectorCount.toNat ≤ 256 ∧
      ws.length = 256 * x.2.1 + x.2.2.1 ∧ ws.take s.blk.dataPos = s.blk.dataBuf.toList.take s.blk.dataPos ∧
      s.ext.pullAnswers = (ws.drop s.blk.dataPos).map PullAnswer.word ++ .noData :: [] := by
  intro x hx
  have h : x.2.2.2 ≤ 256 * x.2.1 + x.2.2.1 ∧ x.2.2.2 < 256 := by
    revert x
    decide
  refine ⟨buffering_moves .., ?_, h.2, ?_, ?_, (by decide : (BitVec.ofNat 16 256).toNat ≤ 256), by simp [someWords],
    someWords_take _ _ h.1 (Nat.le_of_lt h.2), rfl⟩
  · rw [someWords, List.length_replicate]
    exact h.1
  · revert x
    decide
  · revert x
    decide

/-- No sector at the end of the buffer, and its last sector. -/
theorem witness_SectorBufferReadDrains :
    ∀ x ∈ [(256, 0), (255, 1)],
      let s := buffering x.1 256 0 (List.replicate (256 * x.2) .ok ++ []) []
      s.MovesBuffer ∧ s.blk.sectorCount.toNat - s.blk.sectorPos.toNat = x.2 ∧ s.blk.dataPos = 0 ∧
      s.blk.sectorPos.toNat ≤ s.blk.sectorCount.toNat ∧ s.blk.sectorCount.toNat ≤ 256 ∧
      s.ext.pushAnswers = List.replicate (256 * x.2) .ok ++ [] := by
  intro x hx
  refine ⟨buffering_moves .., ?_, rfl, ?_, (by decide : (BitVec.ofNat 16 256).toNat ≤ 256), rfl⟩ <;> revert x <;> decide

/-- The first word of a sector refused, and the last word of the buffer. -/
theorem witness_SectorBufferReadDrains_suspended :
    ∀ x ∈ [(0, 0, 0), (254, 1, 255)],
      let s := buffering x.1 256 0 (List.replicate (256 * x.2.1 + x.2.2) .ok ++ .noData :: []) []
      s.MovesBuffer ∧ s.blk.dataPos = 0 ∧ x.2.1 < s.blk.sectorCount.toNat - s.blk.sectorPos.toNat ∧ x.2.2 < 256 ∧
      s.blk.sectorCount.toNat ≤ 256 ∧
      s.ext.pushAnswers = List.replicate (256 * x.2.1 + x.2.2) .ok ++ .noData :: [] := by
  intro x hx
  refine ⟨buffering_moves .., rfl, ?_, ?_, (by decide : (BitVec.ofNat 16 256).toNat ≤ 256), rfl⟩ <;> revert x <;> decide

/-- The cursor inside a sector: the rest of it taken, or refused after `r` words. -/
theorem witness_SectorBufferReadDrains_resumed :
    ∀ x ∈ [(1, 0), (5, 250), (255, 0)],
      let s := buffering 255 256 x.1 (List.replicate (256 - x.1) .ok ++ []) []
      let u := buffering 255 256 x.1 (List.replicate x.2 .ok ++ .noData :: []) []
      s.MovesBuffer ∧ u.MovesBuffer ∧ 0 < s.blk.dataPos ∧ s.blk.dataPos < 256 ∧ u.blk = s.blk ∧
      s.blk.sectorPos.toNat < s.blk.sectorCount.toNat ∧ s.blk.sectorCount.toNat ≤ 256 ∧
      s.ext.pushAnswers = List.replicate (256 - s.blk.dataPos) .ok ++ [] ∧ u.blk.dataPos + x.2 < 256 ∧
      u.ext.pushAnswers = List.replicate x.2 .ok ++ .noData :: [] := by
  intro x hx
  refine ⟨buffering_moves .., buffering_moves .., ?_, ?_, rfl, ?_, (by decide : (BitVec.ofNat 16 256).toNat ≤ 256), rfl, ?_,
    rfl⟩ <;> revert x <;> decide

theorem witness_SectorBufferCompletion :
    let s := executing .p2 #v[0x00F0, 1, 0, 0] adapter
    s.Runs .p2 ∧ s.blk.cmdDev = .adapter ∧
    Instr.sectorBufferRead false 7 ∈ [Instr.sectorBufferWrite false 7, .sectorBufferRead false 7] :=
  ⟨executing_runs _ _ _, rfl, by decide⟩

/-- One sector and the whole buffer, written and then read from whatever the write left. -/
theorem witness_SectorBufferReadsBack :
    ∀ n ∈ [1, 256],
      let ws := someWords (256 * n)
      let s := buffering 0 n 0 [] (ws.map PullAnswer.word ++ [])
      s.MovesBuffer ∧ s.blk.dataPos = 0 ∧ s.blk.sectorPos = 0 ∧ s.blk.sectorCount.toNat = n ∧ n ≤ 256 ∧
      ws.length = 256 * n ∧ s.ext.pullAnswers = ws.map PullAnswer.word ++ [] ∧
      ∀ m : Memory,
        let v := buffering 0 n 0 (List.replicate (256 * n) .ok ++ []) []
        let u := { v with blk := { v.blk with sectorBuf := m } }
        u.MovesBuffer ∧ u.blk.dataPos = 0 ∧ u.blk.sectorPos = 0 ∧ u.blk.sectorCount.toNat = n ∧ u.blk.sectorBuf = m ∧
        u.ext.pushAnswers = List.replicate (256 * n) .ok ++ [] := by
  intro n hn
  have h : (BitVec.ofNat 16 n).toNat = n ∧ n ≤ 256 := by
    revert n
    decide
  exact ⟨buffering_moves .., rfl, rfl, h.1, h.2, by simp [someWords], rfl, fun m =>
    ⟨⟨⟨armed_clock, rfl, rfl⟩, rfl, dma_enabled⟩, rfl, rfl, h.1, rfl, rfl⟩⟩

/-- One sector and 256, written to drive 0 and then read from whatever the write left of it. -/
theorem witness_WrittenSectorsReadBack :
    ∀ n ∈ [1, 256],
      let ws := someWords (256 * n)
      let s := moving (1001 - n) n 0 (List.replicate n .ok ++ []) [] (ws.map PullAnswer.word ++ [])
      s.MovesDrive .drive0 ∧ s.blk.dataPos = 0 ∧ s.blk.sectorPos = 0 ∧ s.blk.sectorCount.toNat = n ∧
      s.blk.rba.toNat + n ≤ (s.drive .drive0).totalSectors.toNat ∧ ws.length = 256 * n ∧
      s.ext.storageAnswers = List.replicate n .ok ++ [] ∧ s.ext.pullAnswers = ws.map PullAnswer.word ++ [] ∧
      ∀ m : Memory,
        let u := State.setBacking
          (moving (1001 - n) n 0 (List.replicate n .ok ++ []) (List.replicate (256 * n) .ok ++ []) []) .drive0 m
        u.MovesDrive .drive0 ∧ u.blk.dataPos = 0 ∧ u.blk.sectorPos = 0 ∧ u.blk.sectorCount.toNat = n ∧
        u.blk.rba = s.blk.rba ∧ u.drive .drive0 = (s.setBacking .drive0 m).drive .drive0 ∧
        u.ext.storageAnswers = List.replicate n .ok ++ [] ∧ u.ext.pushAnswers = List.replicate (256 * n) .ok ++ [] := by
  intro n hn
  have h : (BitVec.ofNat 16 n).toNat = n ∧ (BitVec.ofNat 32 (1001 - n)).toNat + n ≤ 1001 := by
    revert n
    decide
  exact ⟨moving_moves .., rfl, rfl, h.1, h.2, by simp [someWords], rfl, rfl, fun m =>
    ⟨⟨⟨armed_clock, rfl, rfl⟩, ⟨rfl, rfl⟩, dma_enabled⟩, rfl, rfl, h.1, rfl, rfl, rfl, rfl⟩⟩

theorem witness_SectorReadAfterWrite : Memory.wf [] = true ∧ Memory.wf [(511, 1), (512, 2)] = true := by decide

theorem witness_DeviceStatusReport :
    let s := executing .p0 #v[0x0008, 0, 0, 0] drive0
    s.Runs .p0 ∧ s.Addresses .drive0 ∧ s.blk.status.getLsbD 0 = false ∧ s.blk.irqInProgress = false :=
  ⟨executing_runs _ _ _, executing_addresses _ _, by decide, rfl⟩

theorem witness_AdapterConfigReport :
    let s := executing .p0 #v[0x00E9, 0, 0, 0] adapter
    s.Runs .p0 ∧ s.blk.cmdDev = .adapter ∧ s.blk.status.getLsbD 0 = false ∧ s.blk.irqInProgress = false :=
  ⟨executing_runs _ _ _, rfl, by decide, rfl⟩

theorem witness_DriveConfigReport :
    let s := executing .p0 #v[0x0009, 0, 0, 0] drive0
    s.Runs .p0 ∧ s.Addresses .drive0 ∧ s.blk.status.getLsbD 0 = false ∧ s.blk.irqInProgress = false :=
  ⟨executing_runs _ _ _, executing_addresses _ _, by decide, rfl⟩

theorem witness_PositionInfoReport :
    let s := executing .p0 #v[0x00EA, 0, 0, 0] adapter
    s.Runs .p0 ∧ s.blk.cmdDev = .adapter ∧ s.blk.status.getLsbD 0 = false ∧ s.blk.irqInProgress = false :=
  ⟨executing_runs _ _ _, rfl, by decide, rfl⟩

theorem witness_DiagnosticReport :
    let s := executing .p0 #v[0x00F2, 0, 0, 0] adapter
    s.Runs .p0 ∧ s.blk.cmdDev = .adapter ∧ s.blk.status.getLsbD 0 = false ∧ s.blk.irqInProgress = false :=
  ⟨executing_runs _ _ _, rfl, by decide, rfl⟩

/-- Each flag alone, for a drive and for the adapter. -/
theorem witness_PendingInterruptFaultsQueries :
    (let s := executing .p0 #v[0x0008, 0, 0, 0] drive0
     let t := { s with blk := { s.blk with status := 0x21 } }
     t.Runs .p0 ∧ t.blk.status.getLsbD 0 = true ∧ t.Addresses .drive0) ∧
    (let s := executing .p0 #v[0x00F2, 0, 0, 0] adapter
     let t := { s with blk := { s.blk with irqInProgress := true } }
     t.Runs .p0 ∧ t.blk.irqInProgress = true ∧ t.blk.cmdDev = .adapter) :=
  ⟨⟨⟨armed_clock, rfl, rfl⟩, by decide, ⟨rfl, rfl⟩⟩, ⟨armed_clock, rfl, rfl⟩, rfl, rfl⟩

theorem witness_ConfigReadsAndIgnoredWrites : (1 : BitVec 3).toNat < 2 := by decide

theorem witness_ConfigWriteDecodes : 2 ≤ (2 : BitVec 3).toNat ∧ 2 ≤ (7 : BitVec 3).toNat := by decide

/-- A bus cycle at the last port of the window; and a faulted instance. -/
theorem witness_StepRunsDecodedInstruction :
    (let s := stateZ.scheduled (.io false false 0x3517 0)
     s.blk.fault = none ∧ s.ext.schedule = .io false false 0x3517 0 :: [] ∧
     eventCode (.io false false 0x3517 0) s = some (.port 0x07 0) ∧ read (.port 0x07 0) = some .unwiredRB7) ∧
    { stateZ.blk with fault := some .unwiredPort }.fault = some .unwiredPort := by decide

theorem witness_DecodeOfEncode : Instr.wf (.cfgWrite47 4 0xFF) = true ∧ Instr.wf (.read false 1) = true := by decide

theorem witness_StepKeepsInvariant :
    (stateZ.scheduled (.attention 0x01)).Inv ∧ ∃ t, step (stateZ.scheduled (.attention 0x01)) = .next t :=
  ⟨inv_outside _, _, rfl⟩

theorem witness_QuietStatusAcceptsRequest :
    stateZ.Inv ∧ stateZ.blk.ioEnabled = true ∧ stateZ.blk.fault = none ∧ stateZ.blk.status.getLsbD 4 = false ∧
    stateZ.blk.status.getLsbD 5 = false ∧ (Instr.attnCmdreqAD, Target.adapter) ∈ commandRequests :=
  ⟨inv_stateZ, rfl, rfl, by decide, by decide, by decide⟩

/-- A step that is taken, and the refused call with the smallest index it does not take. -/
theorem witness_StepsAreNeverStuck :
    (stateZ.scheduled (.attention 0x01)).Inv ∧ (stateZ.scheduled (.attention 0x01)).blk.fault = none ∧
    (stateZ.scheduled (.config 0b10001 0)).Inv ∧
    step (stateZ.scheduled (.config 0b10001 0)) = .refused (.undecoded .callTakesNoIndex) :=
  ⟨inv_outside _, rfl, inv_outside _, rfl⟩

/-- A fault with no calls before it. The hypotheses of the second clause are those of PastEndOfDriveFaults, and
`witness_PastEndOfDriveFaults` meets them. -/
theorem witness_FatalFaultRollsBack :
    stateZ.blk.fault = none ∧ exec (.wrCir 0x00E9) stateZ = .next (stateZ.faulted .commandWordWithoutRequest) ∧
    (stateZ.faulted .commandWordWithoutRequest).blk.fault ≠ none := ⟨rfl, rfl, by decide⟩

/-- An instruction that stores nothing, and one that may. -/
theorem witness_OnlyStoringCommandsChangeStorage :
    (∃ t, exec .rdStatus stateZ = .next t) ∧
    (∀ four dev, Instr.rdStatus ≠ .write four dev ∧ Instr.rdStatus ≠ .writeVerify four dev ∧
      Instr.rdStatus ≠ .formatUnit four dev) ∧ ∃ t, exec (.write true 0) stateZ = .next t :=
  ⟨⟨_, rfl⟩, by decide, ⟨_, rfl⟩⟩

end Sys2Proof.Tests
end

section
/-! PROOF. The register interface (40_register_interface.md): the reads of Basic Status, Interrupt Status and the Status
Interface (R141, R142, R181), and the Attention write with its ATTN rows (R160, R165). -/

namespace Sys2Proof.Machine

/-! The named masks and updates, written out as the statements write them. -/

theorem clearBits_statusIrq (v : Byte) : clearBits statusIrq v = v &&& 0xFE := rfl

theorem clearBits_statusSof (v : Byte) : clearBits statusSof v = v &&& 0xF7 := rfl

theorem setBits_statusBusy (v : Byte) : setBits statusBusy v = v ||| 0x10 := rfl

theorem fatal_eq_faulted (s : State) (r : FatalReason) : fatal s r = .next (s.faulted r) := rfl

theorem State.resetStart_eq (s : State) :
    s.resetStart = { s with blk := { s.blk with
      resetPending := true, clock := armedClock s.params s.params.tReset, status := s.blk.status ||| 0x10 } } :=
  State.ext_eq _ _ rfl (by rw [resetStart_blk, setBits_statusBusy]) rfl rfl rfl

theorem endOfInterrupt_eq (s : State) :
    endOfInterrupt s = .next { s with
      blk := { s.blk with irqInProgress := false, irqLatch := false, status := s.blk.status &&& 0xFE }
      ext := { s.ext with calls := .irqLower s.params.irqLineNo :: s.ext.calls } } := by
  simp only [endOfInterrupt, Block.acknowledged, clearBits_statusIrq, State.irqLower, State.call]

/-! The reads, while the interface is bound (R80, R140). -/

theorem exec_rdStatus_bound {s : State} (h : s.blk.ioEnabled = true) :
    exec .rdStatus s = .next (s.answer (.byte s.blk.status)) := if_pos h

theorem exec_rdIsr_bound {s : State} (h : s.blk.ioEnabled = true) :
    exec .rdIsr s = .next { s with
      blk := { s.blk with status := s.blk.status &&& 0xFE }, ext := { s.ext with result := .byte s.blk.irqStatus } } :=
  if_pos h

theorem exec_rdSir_bound {s : State} (h : s.blk.ioEnabled = true) :
    exec .rdSir s =
      if s.blk.statusLen ≤ s.blk.statusPos then .next (s.answer (.word 0x0000))
      else .next { s.answer (.word (s.blk.statusQueue.getD s.blk.statusPos 0)) with blk := s.blk.popped } :=
  if_pos h

/-- Before the last word of the report the cursor moves by one; at the last word the queue empties (R181). -/
theorem Block.popped_eq (b : Block) :
    b.popped =
      if b.statusPos + 1 < b.statusLen then { b with statusPos := b.statusPos + 1 }
      else { b with status := b.status &&& 0xF7, statusPos := 0, statusLen := 0 } := by
  by_cases h : b.statusPos + 1 < b.statusLen
  · rw [if_pos h, Block.popped, if_neg (Nat.not_le.2 h)]
  · rw [if_neg h, Block.popped, if_pos (Nat.not_lt.1 h), clearBits_statusSof]

/-! The Attention write, by device and then by request (R160). -/

theorem targetOf_eq_none_iff (dev : BitVec 3) : targetOf dev = none ↔ dev ≠ 7#3 ∧ dev ≠ 0#3 ∧ dev ≠ 1#3 := by
  decide +revert

theorem exists_targetOf {dev : BitVec 3} (h : dev = 7#3 ∨ dev = 0#3 ∨ dev = 1#3) : ∃ t, targetOf dev = some t := by
  obtain rfl | rfl | rfl := h
  · exact ⟨.adapter, rfl⟩
  · exact ⟨.drive .drive0, rfl⟩
  · exact ⟨.drive .drive1, rfl⟩

/-- The device code of a target is the one code that names it (R101). -/
theorem targetOf_eq_some_iff (dev : BitVec 3) (t : Target) : targetOf dev = some t ↔ dev = t.code := by
  obtain _ | _ | _ := t <;> decide +revert

theorem attention_of_targetOf_none {v : Byte} (s : State) (h : targetOf (attnDev v) = none) :
    attention v s = .next (s.faulted .badAttentionDevice) := by
  rw [attention, h, fatal_eq_faulted]

theorem attention_of_targetOf_some {v : Byte} {t : Target} (s : State) (h : targetOf (attnDev v) = some t) :
    attention v s = attentionRequest t (attnReq v) s := by
  rw [attention, h]

theorem attentionRequest_command (t : Target) (s : State) : attentionRequest t 1#4 s = commandRequest t s := if_pos rfl

theorem attentionRequest_endOfInterrupt (t : Target) (s : State) : attentionRequest t 2#4 s = endOfInterrupt s := rfl

theorem attentionRequest_reset (t : Target) (s : State) :
    attentionRequest t 4#4 s =
      if t = .adapter then .next s.resetStart else .next (s.faulted .badAttentionRequest) := by
  simp only [attentionRequest, BitVec.ofNat_eq_ofNat, BitVec.reduceEq, ↓reduceIte, true_and, fatal_eq_faulted]

theorem attentionRequest_other (t : Target) {req : BitVec 4} (s : State) (h : req ≠ 1#4 ∧ req ≠ 2#4 ∧ req ≠ 4#4) :
    attentionRequest t req s = .next (s.faulted .badAttentionRequest) := by
  obtain ⟨h1, h2, h4⟩ := h
  simp only [attentionRequest, BitVec.ofNat_eq_ofNat, h1, h2, h4, ↓reduceIte, false_and, fatal_eq_faulted]

theorem exec_wrAttn_bound (v : Byte) {s : State} (h : s.blk.ioEnabled = true) :
    exec (.wrAttn v) s = attention v s := if_pos h

/-- The command-request row of a target makes the command request to it (R161). -/
theorem exec_attnCmdreq_bound (t : Target) {s : State} (h : s.blk.ioEnabled = true) :
    exec (if t.code = 7#3 then .attnCmdreqAD else if t.code = 0#3 then .attnCmdreqD0 else .attnCmdreqD1) s =
      commandRequest t s := by
  obtain _ | _ | _ := t <;> exact if_pos h

theorem Target.code_eq_seven_iff (t : Target) : t.code = 7#3 ↔ t = .adapter := by
  obtain _ | _ | _ := t <;> decide

end Sys2Proof.Machine

section
open Sys2Proof Sys2Proof.Machine

/-- Settles O9: the device code names a target or none (`targetOf`), and a target takes the request
(`attentionRequest`); the ATTN row is `decode_attn_exec`. -/
theorem attentionWriteByDeviceThenRequest : Obligations.AttentionWriteByDeviceThenRequest := by
  intro v s hs dev req
  have hrow : exec (.wrAttn v) s = attention v s := exec_wrAttn_bound v hs
  refine ⟨fun hdev => ?_, fun hdev => ?_, ?_⟩
  · rw [hrow, attention_of_targetOf_none s ((targetOf_eq_none_iff dev).2 hdev)]
  · obtain ⟨t, ht⟩ := exists_targetOf hdev
    have hcode : dev = t.code := (targetOf_eq_some_iff dev t).1 ht
    have hreq : exec (.wrAttn v) s = attentionRequest t req s := hrow.trans (attention_of_targetOf_some s ht)
    refine ⟨fun h1 => ?_, fun h2 => ?_, fun h4 => ?_, fun hother => ?_⟩
    · rw [hreq, h1, hcode, exec_attnCmdreq_bound t hs, attentionRequest_command]
    · rw [hreq, h2, attentionRequest_endOfInterrupt, endOfInterrupt_eq]
    · rw [hreq, h4, attentionRequest_reset, State.resetStart_eq, hcode]
      simp only [Target.code_eq_seven_iff]
    · rw [hreq, attentionRequest_other t s hother]
  · obtain ⟨i, hi⟩ := decode_attn_total v
    exact ⟨i, hi, decode_attn_exec s hi⟩

/-- Settles O1: the read answers the register, and the invariant keeps the reserved bits 0 (R23). -/
theorem statusReadReturnsStatus : Obligations.StatusReadReturnsStatus :=
  fun _ hs => ⟨exec_rdStatus_bound hs, fun hinv => hinv.block.reservedStatus⟩

/-- Settles O2: the second read finds `IRQ` clear already, so clearing it again changes nothing. -/
theorem interruptStatusReadClearsIrq : Obligations.InterruptStatusReadClearsIrq := by
  refine ⟨?_, rfl⟩
  intro s hs t
  have hclear : s.blk.status &&& 0xFE &&& 0xFE = s.blk.status &&& 0xFE := by rw [BitVec.and_assoc, BitVec.and_self]
  have ht : exec .rdIsr t = _ := exec_rdIsr_bound (s := t) hs
  refine ⟨exec_rdIsr_bound hs, ?_⟩
  rw [ht]
  simp only [t, hclear]

/-- Settles O3: past the report nothing changes; within it the queue pops, by `Block.popped_eq`. -/
theorem statusInterfaceReadPops : Obligations.StatusInterfaceReadPops := by
  intro s hs
  rw [exec_rdSir_bound hs, Block.popped_eq]
  by_cases hpast : s.blk.statusLen ≤ s.blk.statusPos
  · rw [if_pos hpast, if_pos hpast, State.answer]
  · rw [if_neg hpast, if_neg hpast]
    by_cases hmore : s.blk.statusPos + 1 < s.blk.statusLen
    · simp only [if_pos hmore, State.answer]
    · simp only [if_neg hmore, State.answer]

/-- Settles O12: the adapter's row is `State.resetStart`, with no guard; the two drives' rows fault. -/
theorem attentionResetStartsReset : Obligations.AttentionResetStartsReset := by
  intro s hs
  constructor
  · rw [← State.resetStart_eq]
    exact if_pos hs
  · simp only [List.forall_mem_cons, List.not_mem_nil, false_imp_iff, implies_true, and_true]
    exact ⟨if_pos hs, if_pos hs⟩

end
end

section
/-! PROOF. The command engine (41_command_engine.md): a phase that begins with `Validate` (R214), the commands that have one,
and what an absent drive makes of it (R213, R236). -/

namespace Sys2Proof.Machine

/-- A firing of `i` in the phase `p` begins with `Validate`, before anything else of that phase (R214). -/
def ValidatesIn (p : Phase) (i : Instr) : Prop :=
  ∃ body : State → DriveNo → Flow, ∀ s : State, s.Runs p → exec i s = (validate s.startFiring (body s)).outcome s

/-- A `Validate` that finds the addressed drive absent ends the firing with the device-not-present report (R213, R236). -/
theorem ValidatesIn.exec_absent {p : Phase} {i : Instr} (hi : ValidatesIn p i) {s : State} {d : DriveNo} (hs : s.Runs p)
    (hdev : s.blk.cmdDev = .drive d) (habs : (s.drive d).present = false) :
    exec i s = .next (s.failed Config.errNotPresent) := by
  obtain ⟨body, hbody⟩ := hi
  have habs' : (s.startFiring.drive d).present = false := by rwa [State.startFiring_drive]
  rw [hbody s hs, validate_absent (s := s.startFiring) _ hdev habs', Flow.outcome_done, State.notPresent,
    State.fail_startFiring]

/-- P0 and P2 of the drive-only commands, and of Get-Device-Config for a drive: setup and completion, or the one
body of a query (R202, R214, R267, R316). -/
theorem validatesIn_p0_and_p2 {four : Bool} {dev : BitVec 3} {i : Instr}
    (hi : i ∈ driveCommands four dev ++ [.getDeviceConfigDrive0 four, .getDeviceConfigDrive1 four]) :
    ValidatesIn .p0 i ∧ ValidatesIn .p2 i := by
  simp only [driveCommands, List.cons_append, List.nil_append, List.mem_cons, List.not_mem_nil, or_false] at hi
  obtain rfl | rfl | rfl | rfl | rfl | rfl | rfl | rfl | rfl | rfl | rfl := hi <;>
    exact ⟨⟨_, fun _ hs => firing_runs hs⟩, ⟨_, fun _ hs => firing_runs hs⟩⟩

/-- P1 of the drive-only commands that have one (R262, R272, R274, R289, R292). -/
theorem validatesIn_p1 {four : Bool} {dev : BitVec 3} {i : Instr} (hi : i ∈ dataPhaseCommands four dev) :
    ValidatesIn .p1 i := by
  simp only [dataPhaseCommands, List.mem_cons, List.not_mem_nil, or_false] at hi
  obtain rfl | rfl | rfl | rfl | rfl := hi <;> exact ⟨_, fun _ hs => firing_runs hs⟩

end Sys2Proof.Machine

section
open Sys2Proof Sys2Proof.Machine

/-- Settles O17: every phase that the command has begins with `Validate`, which an absent drive ends
(`ValidatesIn.exec_absent`). -/
theorem absentDriveReported : Obligations.AbsentDriveReported := by
  intro four dev s p d hs hp hdev habs i hi hp1
  have hval : ValidatesIn p i := by
    cases p with
    | idle => exact absurd rfl hp
    | p0 => exact (validatesIn_p0_and_p2 hi).1
    | p1 => exact validatesIn_p1 (hp1 rfl)
    | p2 => exact (validatesIn_p0_and_p2 hi).2
  exact hval.exec_absent hs hdev habs

end
end

section
/-! PROOF. The drive commands (42_drive_commands.md): the outcome of a phase that begins with `Validate` (R212 to R214), the
range check (R234) and the completion (R235) in it, and the setups of the transfer commands, Park-Heads and Format-Prepare. -/

namespace Sys2Proof.Machine

/-- `Validate` at the top of a firing leaves `State.validated` of what the rest of the phase makes of a present drive
(R212 to R214, R236, R239). -/
theorem validate_startFiring_outcome {s : State} {body : DriveNo → Flow} {f : DriveNo → State}
    (hbody : ∀ d, (body d).outcome s = .next (f d)) :
    (validate s.startFiring body).outcome s = .next (s.validated f) := by
  cases htarget : s.blk.cmdDev with
  | adapter =>
    rw [validate_adapter (s := s.startFiring) body htarget, Flow.outcome_done, State.unsupported, State.fail_startFiring,
      State.startFiring_params]
    simp only [State.validated, htarget]
  | drive d =>
    simp only [State.validated, htarget]
    cases hpresent : (s.drive d).present with
    | false =>
      have habs : (s.startFiring.drive d).present = false := by rw [State.startFiring_drive, hpresent]
      rw [validate_absent (s := s.startFiring) body htarget habs, Flow.outcome_done, State.notPresent,
        State.fail_startFiring, if_neg Bool.false_ne_true]
      rfl
    | true =>
      have hpres : (s.startFiring.drive d).present = true := by rw [State.startFiring_drive, hpresent]
      rw [validate_present (s := s.startFiring) body htarget hpres, hbody d, if_pos rfl]

/-- The range check on what the start of a firing leaves of `s` (R234, R237). -/
theorem rangeCheck_startFiring_done (s t : State) (d : DriveNo) :
    rangeCheck s.startFiring d (.done t) = .done (s.checked d t) := by
  simp only [rangeCheck, State.checked, State.startFiring_drive, State.startFiring_blk, State.rbaOutOfRange,
    State.fail_startFiring, State.startFiring_params]
  exact (apply_ite Flow.done _ _ _).symm

theorem State.loadTransfer_startFiring (s : State) : s.startFiring.loadTransfer = s.loaded.startFiring := rfl

theorem transferSetup_outcome (s : State) :
    (transferSetup s.startFiring).outcome s =
      .next (s.validated fun d => s.loaded.checked d (s.loaded.ready s.blk.cmdDev)) := by
  refine validate_startFiring_outcome fun d => ?_
  rw [State.loadTransfer_startFiring, rangeCheck_startFiring_done, State.transferReady_startFiring, Flow.outcome_done,
    State.startFiring_blk]

theorem parkSetup_outcome (s : State) :
    (parkSetup s.startFiring).outcome s = .next (s.validated fun d =>
      State.advanced { s with blk := { s.blk with rba := 0 } } .p2 (s.params.tBase + Config.seekTime d 0)) := by
  refine validate_startFiring_outcome fun d => ?_
  rw [Flow.outcome_done, Nat.add_comm s.params.tBase]
  exact congrArg Host.Outcome.next (State.endPhase_startFiring { s with blk := { s.blk with rba := 0 } } _ _)

theorem formatPrepareSetup_outcome (s : State) :
    (formatPrepareSetup s.startFiring).outcome s = .next (s.validated fun d =>
      State.advanced { s with blk := { s.blk with rba := (s.drive d).lastSector, sectorPos := 0 } } .p1 s.params.tBase) := by
  refine validate_startFiring_outcome fun d => ?_
  rw [Flow.outcome_done, State.startFiring_drive]
  exact congrArg Host.Outcome.next
    (State.endPhase_startFiring { s with blk := { s.blk with rba := (s.drive d).lastSector, sectorPos := 0 } } _ _)

theorem formatPrepareData_outcome (s : State) :
    (formatPrepareData s.startFiring).outcome s = .next (s.validated fun _ => s.advanced .p2 s.params.tBase) := by
  refine validate_startFiring_outcome fun d => ?_
  rw [Flow.outcome_done, State.endPhase_startFiring, State.startFiring_params]

/-- P2 of every drive command ends with the completion report (R235, R267). -/
theorem driveCompletion_outcome (s : State) :
    (driveCompletion s.startFiring).outcome s = .next (s.validated fun _ => s.succeeded s.completionWords) := by
  refine validate_startFiring_outcome fun d => ?_
  rw [Flow.outcome_done, State.completeOk, State.succeed_startFiring]
  rfl

/-- The completion report with the last-processed address as its two words (R113, R241). -/
theorem State.completionWords_eq (s : State) :
    s.completionWords = [hdr s.blk.command s.blk.cmdDev.code 7, 0x0000, s.params.deviceStatusWord, 0x0000,
      (s.blk.rba - 1).extractLsb' 0 16, (s.blk.rba - 1).extractLsb' 16 16, 0x0000] := rfl

end Sys2Proof.Machine

section
open Sys2Proof Sys2Proof.Machine

/-- Settles O20: the three commands have one P0, `transferSetup` (R261, R270, R274). -/
theorem transferSetup : Obligations.TransferSetup := by
  intro four dev i hi s hs
  simp only [List.mem_cons, List.not_mem_nil, or_false] at hi
  obtain rfl | rfl | rfl := hi <;> exact (firing_runs hs).trans (transferSetup_outcome s)

/-- Settles O23: P0 of Park-Heads is `parkSetup`, which has no range check. -/
theorem parkHeadsSetup : Obligations.ParkHeadsSetup := fun _ _ s hs =>
  (firing_runs hs).trans (parkSetup_outcome s)

/-- Settles O25: one outcome lemma for each phase; P2 is the completion of every drive command. -/
theorem formatPreparePhases : Obligations.FormatPreparePhases := by
  intro four dev s
  refine ⟨fun h0 => ?_, fun h1 => ?_, fun h2 => ?_⟩
  · exact (firing_runs h0).trans (formatPrepareSetup_outcome s)
  · exact (firing_runs h1).trans (formatPrepareData_outcome s)
  · rw [← State.completionWords_eq]
    exact (firing_runs h2).trans (driveCompletion_outcome s)

end
end

section
/-! PROOF. The unrecognized commands (43_adapter_and_query_commands.md): one body, `Unsupported()` (R239), in every phase and
for every code (R340). -/

namespace Sys2Proof.Machine

/-- Every row of an unrecognized code is the one firing with the same body in all three phases (R112, R340). -/
theorem exec_unrecognizedCommands {four : Bool} {dev : BitVec 3} {i : Instr} (hi : i ∈ unrecognizedCommands four dev)
    (s : State) : exec i s = firing unrecognized unrecognized unrecognized s := by
  simp only [unrecognizedCommands, List.mem_cons, List.not_mem_nil, or_false] at hi
  obtain rfl | rfl | rfl | rfl | rfl | rfl | rfl | rfl | rfl | rfl | rfl | rfl | rfl | rfl | rfl | rfl | rfl | rfl := hi <;>
    rfl

/-- The body reads no target and no flag: it ends the firing with the not-supported report (R239, R340). -/
theorem unrecognized_outcome (s : State) :
    (unrecognized s.startFiring).outcome s = .next (s.failed s.params.errUnsupported) := by
  rw [unrecognized, Flow.outcome_done, State.unsupported, State.fail_startFiring, State.startFiring_params]

/-- A firing that runs a phase other than Idle runs the body that a command has in all three phases (R202). -/
theorem firing_same_body {p : Phase} {s : State} (body : State → Flow) (hs : s.Runs p) (hp : p ≠ .idle) :
    firing body body body s = (body s.startFiring).outcome s := by
  rw [firing_runs hs]
  cases p with
  | idle => exact absurd rfl hp
  | p0 => rfl
  | p1 => rfl
  | p2 => rfl

end Sys2Proof.Machine

section
open Sys2Proof Sys2Proof.Machine

/-- Settles O18: the 18 rows are one firing, whose body is the same in every phase and checks nothing. -/
theorem unrecognizedCodeNotSupported : Obligations.UnrecognizedCodeNotSupported := by
  intro four dev s p hs hp i hi
  rw [exec_unrecognizedCommands hi, firing_same_body unrecognized hs hp, unrecognized_outcome]

end
end

section
/-! PROOF. Decoding the encoding (30_encoding.md): the fields that each format packs are the fields that its decoder
reads, and so, format by format, `decode` undoes `encode`. -/

namespace Sys2Proof.Machine
open Sys2Proof.Laws

/-! What the field readers find in a code that the encoder made. -/

@[simp] theorem lowByte_byteData (v : Byte) : lowByte (byteData v) = v := by
  rw [lowByte, byteData, BitVec.extractLsb'_setWidth_of_le (by decide), BitVec.extractLsb'_eq_self]

@[simp] theorem attnDev_attnByte (dev : BitVec 3) (req : BitVec 4) : attnDev (attnByte dev req) = dev := by
  decide +revert

@[simp] theorem attnReq_attnByte (dev : BitVec 3) (req : BitVec 4) : attnReq (attnByte dev req) = req := by
  decide +revert

@[simp] theorem cmd0Code_cmd0Word (four : Bool) (dev : BitVec 3) (code : BitVec 5) :
    cmd0Code (cmd0Word four dev code) = code := by
  rw [cmd0Code, cmd0Word, BitVec.extractLsb'_append_eq_right]

@[simp] theorem cmd0Dev_cmd0Word (four : Bool) (dev : BitVec 3) (code : BitVec 5) :
    cmd0Dev (cmd0Word four dev code) = dev := by
  rw [cmd0Dev, cmd0Word, BitVec.extractLsb'_append_eq_of_le (by decide)]
  exact BitVec.extractLsb'_append_eq_right

@[simp] theorem cmd0Four_cmd0Word (four : Bool) (dev : BitVec 3) (code : BitVec 5) :
    cmd0Four (cmd0Word four dev code) = four := by
  rw [cmd0Four, cmd0Word]
  repeat rw [BitVec.getLsbD_append, if_neg (by decide)]
  rw [BitVec.getLsbD_append, if_pos (by decide)]
  cases four <;> rfl

@[simp] theorem cfgopCall_cfgopDesc (call : BitVec 2) (index : BitVec 3) : cfgopCall (cfgopDesc call index) = call := by
  decide +revert

@[simp] theorem cfgopIndex_cfgopDesc (call : BitVec 2) (index : BitVec 3) : cfgopIndex (cfgopDesc call index) = index := by
  decide +revert

/-! One format at a time. -/

/-- A byte write decodes to the low byte of the data lines, a word write to all of them (R117). -/
theorem decode_encode_port {i : Instr} (h : (rowOf i).1 = .port) : decode (encode i) = .ok i := by
  cases i
  all_goals first
    | contradiction
    | rfl
    | (change Except.ok _ = _; rw [lowByte_byteData])

/-- An attention byte decodes by its two fields (R102). -/
theorem decode_encode_attn {i : Instr} (h : (rowOf i).1 = .attn) : decode (encode i) = .ok i := by
  cases i
  all_goals first
    | contradiction
    | (rw [encode, decode, decodeAttn, attnDev_attnByte, attnReq_attnByte]; rfl)

/-- A command word decodes by its code, and Get-Device-Config by its device field too (R107, R111). -/
theorem decode_encode_cmd0 {i : Instr} (h : (rowOf i).1 = .cmd0) : decode (encode i) = .ok i := by
  cases i
  all_goals first
    | contradiction
    | (rw [encode, decode, decodeCmd0, cmd0Code_cmd0Word, cmd0Dev_cmd0Word, cmd0Four_cmd0Word]; rfl)

/-- A configuration write decodes by its index to the row that takes the index (R120). -/
theorem decode_encode_cfgop {i : Instr} (h : (rowOf i).1 = .cfgop) (hw : i.wf = true) : decode (encode i) = .ok i := by
  cases i with
  | cfgRead i =>
    rw [encode, decode, decodeCfgop, cfgopCall_cfgopDesc, cfgopIndex_cfgopDesc]
    rfl
  | cfgWriteIgnored i v =>
    have hi : i.toNat < 2 := by simpa only [Instr.wf, decide_eq_true_eq] using hw
    rw [encode, decode, decodeCfgop, cfgopCall_cfgopDesc, cfgopIndex_cfgopDesc]
    exact if_pos hi
  | cfgWrite23 i v =>
    have hi : 2 ≤ i.toNat ∧ i.toNat < 4 := by simpa only [Instr.wf, Bool.and_eq_true, decide_eq_true_eq] using hw
    rw [encode, decode, decodeCfgop, cfgopCall_cfgopDesc, cfgopIndex_cfgopDesc]
    exact (if_neg (Nat.not_lt.2 hi.1)).trans (if_pos hi.2)
  | cfgWrite47 i v =>
    have hi : 4 ≤ i.toNat := by simpa only [Instr.wf, decide_eq_true_eq] using hw
    rw [encode, decode, decodeCfgop, cfgopCall_cfgopDesc, cfgopIndex_cfgopDesc]
    exact (if_neg (by omega)).trans (if_neg (by omega))
  | cfgFeedback => rfl
  | cfgReset => rfl
  | _ => contradiction

end Sys2Proof.Machine

section
open Sys2Proof Sys2Proof.Machine Sys2Proof.Laws

/-- Settles O54, format by format; well-formedness matters only to a configuration write, whose row fixes a range of
indices. -/
theorem decodeOfEncode : Obligations.DecodeOfEncode := by
  intro i hi
  cases h : (rowOf i).1 with
  | port => exact decode_encode_port h
  | attn => exact decode_encode_attn h
  | cmd0 => exact decode_encode_cmd0 h
  | cfgop => exact decode_encode_cfgop h hi

end
end

section
/-! PROOF. What every instruction can do, said once: a host access or a configuration call leaves one of a few states
(`Access`, R80, R140, R160, R350), and a command is a firing whose three phases go by its code (`CommandPhases`, R111, R202). -/

namespace Sys2Proof.Machine
open Sys2Proof.Laws

/-! Host accesses and configuration calls. -/

/-- The states that a host access or a configuration call can leave of `s`. -/
inductive Access (s : State) : State → Prop
  /-- A host write while the interface is unbound, or an ignored configuration write (R80, R351). -/
  | unchanged : Access s s
  /-- A host read while the interface is unbound (R80). -/
  | bus (w : Width) : Access s (s.busRead w)
  /-- A read that changes nothing of the block (R141, R181, R355, R356). -/
  | answer (v : ReadValue) : Access s (s.answer v)
  /-- An Interrupt-Status read (R142). -/
  | isr (v : ReadValue) : Access s ((s.answer v).setStatus (clearBits statusIrq s.blk.status))
  /-- A Status-Interface read inside the report (R181). -/
  | pop (v : ReadValue) (h : s.blk.statusPos < s.blk.statusLen) : Access s { s.answer v with blk := s.blk.popped }
  /-- A Basic-Control write (R145). -/
  | control (v : Byte) : Access s (irqEnaEdge s.blk.ctrl v ((resetEdge s.blk.ctrl v s).setCtrl v))
  /-- A Command-Interface write that does not complete the block (R175). -/
  | queued (v : Word) (hg : s.blk.cmdReqInProgress = true) (hp : s.blk.cmdPos < 4)
      (hl : s.blk.cmdPos + 1 ≠ blockLength ((s.blk.queued v).cmdWord 0)) : Access s { s with blk := s.blk.queued v }
  /-- A Command-Interface write that completes the block (R176). -/
  | started (v : Word) (hg : s.blk.cmdReqInProgress = true) (hp : s.blk.cmdPos < 4)
      (ht : cmd0Dev ((s.blk.queued v).cmdWord 0) = s.blk.cmdDev.code) :
      Access s (State.arm { s with blk := (s.blk.queued v).started } s.params.tBase)
  /-- A command request that is accepted (R161). -/
  | requested (d : Target) (h : s.blk.commandInProgress = false) : Access s { s with blk := s.blk.requested d }
  /-- An end of interrupt (R163). -/
  | acknowledged : Access s (State.irqLower { s with blk := s.blk.acknowledged })
  /-- A reset request (R165). -/
  | reset : Access s s.resetStart
  /-- A configuration write of byte 2 to 7 (R351). -/
  | configured (i : Nat) (v : Byte) (calls : List Call) (h : 2 ≤ i) :
      Access s { s with blk := s.blk.configured i v, ext := { s.ext with calls := calls ++ s.ext.calls } }
  /-- A fatal fault (R402). -/
  | fault (r : FatalReason) : Access s (s.faulted r)

/-- The instruction's outcome is a next state that an access can leave. -/
def Accesses (s : State) (x : StepResult) : Prop := ∃ t, x = .next t ∧ Access s t

theorem Accesses.hostRead {s : State} {body : State → StepResult} (w : Width) (h : Accesses s (body s)) :
    Accesses s (hostRead w s body) := by
  unfold Machine.hostRead
  split
  · exact h
  · exact ⟨_, rfl, .bus w⟩

theorem Accesses.hostWrite {s : State} {body : State → StepResult} (h : Accesses s (body s)) :
    Accesses s (hostWrite s body) := by
  unfold Machine.hostWrite
  split
  · exact h
  · exact ⟨_, rfl, .unchanged⟩

theorem Accesses.fatal (s : State) (r : FatalReason) : Accesses s (fatal s r) := ⟨_, rfl, .fault r⟩

/-- A read of an unwired port (R143). -/
theorem Accesses.readFault (w : Width) (s : State) (r : FatalReason) :
    Accesses s (Machine.hostRead w s fun s => Machine.fatal s r) := .hostRead w (.fatal s r)

/-- A write that faults once it reaches the block (R143, R166). -/
theorem Accesses.writeFault (s : State) (r : FatalReason) : Accesses s (Machine.hostWrite s fun s => Machine.fatal s r) :=
  .hostWrite (.fatal s r)

theorem commandRequest_accesses (d : Target) (s : State) : Accesses s (commandRequest d s) := by
  unfold commandRequest
  split
  · exact .fatal s _
  · rename_i hc
    exact ⟨_, rfl, .requested d (by simpa using hc)⟩

theorem endOfInterrupt_accesses (s : State) : Accesses s (endOfInterrupt s) := ⟨_, rfl, .acknowledged⟩

theorem attention_accesses (v : Byte) (s : State) : Accesses s (attention v s) := by
  cases ht : targetOf (attnDev v) with
  | none => exact ⟨_, attention_of_targetOf_none s ht, .fault _⟩
  | some d =>
    rw [attention_of_targetOf_some s ht, attentionRequest]
    split
    · exact commandRequest_accesses d s
    · split
      · exact endOfInterrupt_accesses s
      · split
        · exact ⟨_, rfl, .reset⟩
        · exact .fatal s _

theorem execRdStatus_accesses (s : State) : Accesses s (execRdStatus s) := by
  refine .hostRead .byte ?_
  exact ⟨_, rfl, .answer _⟩

theorem execRdIsr_accesses (s : State) : Accesses s (execRdIsr s) := by
  refine .hostRead .byte ?_
  exact ⟨_, rfl, .isr _⟩

theorem execWrCtrl_accesses (v : Byte) (s : State) : Accesses s (execWrCtrl v s) := by
  refine .hostWrite ?_
  exact ⟨_, rfl, .control v⟩

theorem execAttnResetAD_accesses (s : State) : Accesses s (execAttnResetAD s) := by
  refine .hostWrite ?_
  exact ⟨_, rfl, .reset⟩

theorem execRdSir_accesses (s : State) : Accesses s (execRdSir s) := by
  refine .hostRead .word ?_
  simp only
  split
  · exact ⟨_, rfl, .answer _⟩
  · exact ⟨_, rfl, .pop _ (by omega)⟩

theorem execWrCir_accesses (v : Word) (s : State) : Accesses s (execWrCir v s) := by
  refine .hostWrite ?_
  simp only [blockComplete, ne_eq, ite_not]
  split
  case isFalse => exact .fatal s _
  case isTrue hg =>
    split
    case isTrue => exact .fatal s _
    case isFalse hp =>
      split
      case isFalse hl => exact ⟨_, rfl, .queued v hg (by omega) hl⟩
      case isTrue =>
        split
        case isTrue ht => exact ⟨_, rfl, .started v hg (by omega) ht⟩
        case isFalse => exact ⟨_, rfl, .fault .targetMismatch⟩

theorem cfgWrite_accesses (i : Nat) (v : Byte) (s : State) : Accesses s (.next (cfgWrite i v s)) := by
  rcases cfgWrite_cases i v s with ⟨-, h⟩ | ⟨hi, calls, h⟩
  · exact ⟨_, congrArg _ h, .unchanged⟩
  · exact ⟨_, congrArg _ h, .configured i v calls hi⟩

/-- Every instruction that is no command answers a next state, and it is one that an access can leave. -/
theorem exec_accesses {i : Instr} (h : (rowOf i).1 ≠ .cmd0) (s : State) : Accesses s (exec i s) := by
  cases i
  all_goals first
    | exact absurd rfl h
    | exact .writeFault s _
    | exact .readFault _ s _
    | exact .hostWrite (commandRequest_accesses _ s)
    | exact .hostWrite (endOfInterrupt_accesses s)
    | skip
  case rdSir => exact execRdSir_accesses s
  case wrCir v => exact execWrCir_accesses v s
  case rdStatus => exact execRdStatus_accesses s
  case wrCtrl v => exact execWrCtrl_accesses v s
  case rdIsr => exact execRdIsr_accesses s
  case wrAttn v => exact .hostWrite (attention_accesses v s)
  case attnResetAD => exact execAttnResetAD_accesses s
  case cfgRead i => exact ⟨_, rfl, .answer _⟩
  case cfgWriteIgnored i v => exact cfgWrite_accesses _ v s
  case cfgWrite23 i v => exact cfgWrite_accesses _ v s
  case cfgWrite47 i v => exact cfgWrite_accesses _ v s
  case cfgFeedback => exact ⟨_, rfl, .answer _⟩
  case cfgReset => exact cfgWrite_accesses 2 0x00 s

/-! Commands. -/

/-- The code of a command's row (R107, R111). -/
def codeOf (i : Instr) : BitVec 5 := BitVec.ofNat 5 (rowOf i).2.2

/-- The bodies of the single-phase queries and of Diagnostic (R310, R314, R316, R320, R335). -/
inductive QueryBody : (State → Flow) → Prop
  | deviceStatus : QueryBody deviceStatus
  | adapterConfig : QueryBody adapterConfig
  | driveConfig : QueryBody driveConfig
  | positionInfo : QueryBody positionInfo
  | diagnostic : QueryBody diagnosticBody

/-- The bodies of the phases P0, P1 and P2 of the command of a code (R111, R202). -/
inductive CommandPhases : BitVec 5 → (State → Flow) → (State → Flow) → (State → Flow) → Prop
  | read : CommandPhases 0x01 transferSetup readData driveCompletion
  | write {c : BitVec 5} (h : c ∈ [0x02#5, 0x04#5]) : CommandPhases c transferSetup writeData driveCompletion
  | readVerify : CommandPhases 0x03 readVerifySetup noPhase driveCompletion
  | seek : CommandPhases 0x05 seekSetup noPhase driveCompletion
  | parkHeads : CommandPhases 0x06 parkSetup noPhase driveCompletion
  | formatUnit : CommandPhases 0x16 formatUnitSetup formatUnitData driveCompletion
  | formatPrepare : CommandPhases 0x17 formatPrepareSetup formatPrepareData driveCompletion
  | bufferWrite : CommandPhases 0x10 bufferSetup bufferWriteData bufferCompletion
  | bufferRead : CommandPhases 0x11 bufferSetup bufferReadData bufferCompletion
  | query {c : BitVec 5} {body : State → Flow} (h : QueryBody body) : CommandPhases c body body body
  | unrecognized {c : BitVec 5} : CommandPhases c unrecognized unrecognized unrecognized

/-- Every command is a firing with the phases of its code (R202). -/
theorem exec_command {i : Instr} (h : (rowOf i).1 = .cmd0) :
    ∃ p0 p1 p2, CommandPhases (codeOf i) p0 p1 p2 ∧ ∀ s, exec i s = firing p0 p1 p2 s := by
  cases i
  all_goals first
    | contradiction
    | exact ⟨_, _, _, .unrecognized, fun _ => rfl⟩
    | skip
  case read => exact ⟨_, _, _, .read, fun _ => rfl⟩
  case write => exact ⟨_, _, _, .write (c := 0x02) (by decide), fun _ => rfl⟩
  case writeVerify => exact ⟨_, _, _, .write (c := 0x04) (by decide), fun _ => rfl⟩
  case readVerify => exact ⟨_, _, _, .readVerify, fun _ => rfl⟩
  case seek => exact ⟨_, _, _, .seek, fun _ => rfl⟩
  case parkHeads => exact ⟨_, _, _, .parkHeads, fun _ => rfl⟩
  case formatUnit => exact ⟨_, _, _, .formatUnit, fun _ => rfl⟩
  case formatPrepare => exact ⟨_, _, _, .formatPrepare, fun _ => rfl⟩
  case sectorBufferWrite => exact ⟨_, _, _, .bufferWrite, fun _ => rfl⟩
  case sectorBufferRead => exact ⟨_, _, _, .bufferRead, fun _ => rfl⟩
  case getDeviceStatus => exact ⟨_, _, _, .query .deviceStatus, fun _ => rfl⟩
  case getDeviceConfigAdapter => exact ⟨_, _, _, .query .adapterConfig, fun _ => rfl⟩
  case getDeviceConfigDrive0 => exact ⟨_, _, _, .query .driveConfig, fun _ => rfl⟩
  case getDeviceConfigDrive1 => exact ⟨_, _, _, .query .driveConfig, fun _ => rfl⟩
  case getPositionInfo => exact ⟨_, _, _, .query .positionInfo, fun _ => rfl⟩
  case diagnostic => exact ⟨_, _, _, .query .diagnostic, fun _ => rfl⟩

/-- A command word decodes to a command of its code (R107). -/
theorem codeOf_of_decode_cmd0 {w : Word} {i : Instr} (h : decode (.cmd0 w) = .ok i) :
    (rowOf i).1 = .cmd0 ∧ codeOf i = cmd0Code w := by
  simp only [decode, decodeCmd0] at h
  split at h <;> rename_i hc <;> try split at h
  all_goals first
    | contradiction
    | (obtain rfl := Except.ok.inj h; exact ⟨rfl, by simp only [hc, codeOf, rowOf, BitVec.reduceOfNat]⟩)

/-- No other code decodes to a command. -/
theorem rowOf_of_decode {c : Code} {i : Instr} (h : decode c = .ok i) (hc : ∀ w, c ≠ .cmd0 w) : (rowOf i).1 ≠ .cmd0 := by
  cases c with
  | cmd0 w => exact absurd rfl (hc w)
  | port desc data =>
    simp only [decode, decodePort] at h
    split at h
    all_goals first
      | contradiction
      | (obtain rfl := Except.ok.inj h; exact Format.noConfusion)
  | attn b =>
    simp only [decode, decodeAttn] at h
    split at h <;> try split at h
    all_goals first
      | contradiction
      | (obtain rfl := Except.ok.inj h; exact Format.noConfusion)
  | cfgop op data =>
    simp only [decode, decodeCfgop] at h
    repeat' split at h
    all_goals first
      | contradiction
      | (obtain rfl := Except.ok.inj h; exact Format.noConfusion)

end Sys2Proof.Machine
end

section
/-! PROOF. The invariant (10_state.md, Invariants the source states): what each operation of the block keeps of it, what a
host access keeps, and what each phase of each command keeps. -/

namespace Sys2Proof.Machine
open Sys2Proof.Laws

/-! Bits of the status register. -/

theorem reserved_setBits_busy {v : Byte} (h : v &&& (statusDmaen ||| statusIrqpend ||| statusCirf) = 0) :
    setBits statusBusy v &&& (statusDmaen ||| statusIrqpend ||| statusCirf) = 0 := by
  decide +revert

theorem reserved_clearBits {v : Byte} (m : Byte) (h : v &&& (statusDmaen ||| statusIrqpend ||| statusCirf) = 0) :
    clearBits m v &&& (statusDmaen ||| statusIrqpend ||| statusCirf) = 0 := by
  rw [clearBits, BitVec.and_assoc, BitVec.and_comm (~~~m), ← BitVec.and_assoc, h]
  exact BitVec.zero_and

theorem busy_setBits (v : Byte) : hasBit statusBusy (setBits statusBusy v) = true := by
  decide +revert

theorem irq_setBits_busy (v : Byte) : hasBit statusIrq (setBits statusBusy v) = hasBit statusIrq v := by
  decide +revert

theorem irq_clearBits_irq (v : Byte) : hasBit statusIrq (clearBits statusIrq v) = false := by
  decide +revert

theorem busyOrCip_clearBits_irq (v : Byte) :
    hasBit statusBusy (clearBits statusIrq v) = hasBit statusBusy v ∧
      hasBit statusCip (clearBits statusIrq v) = hasBit statusCip v := by
  decide +revert

theorem flags_clearBits_sof (v : Byte) :
    hasBit statusBusy (clearBits statusSof v) = hasBit statusBusy v ∧
      hasBit statusCip (clearBits statusSof v) = hasBit statusCip v ∧
      hasBit statusIrq (clearBits statusSof v) = hasBit statusIrq v := by
  decide +revert

/-! The clock. -/

theorem armedClock_eq_armed_zero {p : Params} {t : Nat} (h : armedClock p t = .armed 0) : p.zeroDelay = .fireNext := by
  unfold armedClock at h
  split at h
  · cases hz : p.zeroDelay with
    | disarm => rw [hz] at h; exact nomatch h
    | fireNext => rfl
  · exact absurd (Clock.armed.inj h) ‹_›

/-! The command queue and the configuration block. -/

theorem Block.cmdWord_zero_queued {b : Block} (v : Word) (h : 0 < b.cmdPos) : (b.queued v).cmdWord 0 = b.cmdWord 0 := by
  have hne : b.cmdPos ≠ 0 := by omega
  simp [Block.queued, Block.cmdWord, Vector.getD, hne]

theorem Block.cfgByte_configured {b : Block} {i : Nat} (v : Byte) {j : Nat} (h : j < i) :
    (b.configured i v).cfgByte j = b.cfgByte j := by
  have hne : i ≠ j := by omega
  simp [Block.configured, Block.cfgByte, Vector.getD, hne]

/-! One operation of the block at a time. -/

section Operations
variable {p : Params} {b : Block}

/-- A command block that is complete has 2 or 4 words, so a queue that is not stays below 4, and passes 2 only in a 4-word
block (R108, R177). -/
theorem Block.Inv.cmdPos_queued (h : b.Inv p) (v : Word) (hl : b.cmdPos + 1 ≠ blockLength ((b.queued v).cmdWord 0)) :
    b.cmdPos + 1 < 4 ∧ (2 ≤ b.cmdPos + 1 → cmd0Four ((b.queued v).cmdWord 0) = true) := by
  obtain ⟨hlt, hfour⟩ := h.cmdPos
  by_cases h0 : b.cmdPos = 0
  · exact ⟨by omega, by omega⟩
  · have hw := Block.cmdWord_zero_queued v (Nat.pos_of_ne_zero h0)
    rw [hw] at hl ⊢
    cases hf : cmd0Four (b.cmdWord 0) with
    | true =>
      simp only [blockLength, hf, if_true] at hl
      exact ⟨by omega, fun _ => rfl⟩
    | false =>
      simp only [blockLength, hf, Bool.false_eq_true, if_false] at hl
      rw [hf] at hfour
      exact absurd (hfour (by omega)) Bool.false_ne_true

/-- An empty command queue (R177). -/
theorem cmdPos_of_empty (q : Prop) : 0 < 4 ∧ (2 ≤ 0 → q) := ⟨by decide, fun h => absurd h (by decide)⟩

/-- A command word that does not complete its block (R175). -/
theorem Block.Inv.queued (h : b.Inv p) (v : Word) (hg : b.cmdReqInProgress = true)
    (hl : b.cmdPos + 1 ≠ blockLength ((b.queued v).cmdWord 0)) : (b.queued v).Inv p :=
  { h with
    cmdPos := h.cmdPos_queued v hl
    commandWord := fun hp => by
      rw [h.oneCommand hp] at hg
      exact absurd hg Bool.false_ne_true }

/-- The start of a command by the last word of its block (R176). -/
theorem Block.Inv.started (h : b.Inv p) (v : Word) (t : Nat) (ht : cmd0Dev ((b.queued v).cmdWord 0) = b.cmdDev.code) :
    Block.Inv p { (b.queued v).started with clock := armedClock p t } :=
  { h with
    reservedStatus := reserved_setBits_busy h.reservedStatus
    cmdPos := cmdPos_of_empty _
    dataPos := Nat.zero_le _
    oneCommand := fun _ => rfl
    commandWord := fun _ => ⟨rfl, ht⟩
    busyOrCip := fun _ => .inl (busy_setBits _)
    clockHasWork := fun _ => .inl (by simp [Block.started])
    noDelay := armedClock_eq_armed_zero
    irqFlag := fun hi => h.irqFlag (by rwa [Block.started, irq_setBits_busy] at hi)
    phaseP1 := fun hp => nomatch hp
    bufferCount := fun hp => nomatch hp }

/-- An accepted command request (R161). -/
theorem Block.Inv.requested (h : b.Inv p) (d : Target) (hc : b.commandInProgress = false) : (b.requested d).Inv p := by
  obtain ⟨⟨-, hidle⟩, -⟩ : (b.cmdReqInProgress = false ∧ b.phase = .idle) ∧ b.resetPending = false := by
    simpa [Block.commandInProgress] using hc
  exact { h with
    reservedStatus := reserved_setBits_busy h.reservedStatus
    statusPos := .inl rfl
    cmdPos := cmdPos_of_empty _
    oneCommand := fun hp => absurd hidle hp
    commandWord := fun hp => absurd hidle hp
    busyOrCip := fun _ => .inl (busy_setBits _)
    irqFlag := fun hi => h.irqFlag (by rwa [Block.requested, irq_setBits_busy] at hi) }

/-- An end of interrupt clears the flag, the guard and the latch together (R163). -/
theorem Block.Inv.acknowledged (h : b.Inv p) : b.acknowledged.Inv p :=
  { h with
    reservedStatus := reserved_clearBits _ h.reservedStatus
    busyOrCip := fun hw => by
      rw [Block.acknowledged, (busyOrCip_clearBits_irq _).1, (busyOrCip_clearBits_irq _).2]
      exact h.busyOrCip hw
    latch := rfl
    irqFlag := fun hi => by
      rw [Block.acknowledged, irq_clearBits_irq] at hi
      exact nomatch hi }

/-- An Interrupt-Status read (R142). -/
theorem Block.Inv.irqRead (h : b.Inv p) : Block.Inv p { b with status := clearBits statusIrq b.status } :=
  { h with
    reservedStatus := reserved_clearBits _ h.reservedStatus
    busyOrCip := fun hw => by
      rw [(busyOrCip_clearBits_irq _).1, (busyOrCip_clearBits_irq _).2]
      exact h.busyOrCip hw
    irqFlag := fun hi => by
      rw [irq_clearBits_irq] at hi
      exact nomatch hi }

/-- A Status-Interface read (R181). -/
theorem Block.Inv.popped (h : b.Inv p) : b.popped.Inv p := by
  unfold Block.popped
  obtain ⟨hbusy, hcip, hirq⟩ := flags_clearBits_sof b.status
  split
  · exact { h with
      reservedStatus := reserved_clearBits _ h.reservedStatus
      statusLen := Nat.zero_le _
      statusPos := .inl rfl
      busyOrCip := fun hw => by
        rw [hbusy, hcip]
        exact h.busyOrCip hw
      irqFlag := fun hi => h.irqFlag (by rwa [hirq] at hi) }
  · rename_i hlt
    exact { h with statusPos := .inr (Nat.lt_of_not_le hlt) }

/-- A reset request, or a fall of `RESET` (R145, R147, R165). -/
theorem Block.Inv.resetStarted (h : b.Inv p) (t : Nat) :
    Block.Inv p { b with resetPending := true, clock := armedClock p t, status := setBits statusBusy b.status } :=
  { h with
    reservedStatus := reserved_setBits_busy h.reservedStatus
    busyOrCip := fun _ => .inl (busy_setBits _)
    clockHasWork := fun _ => .inr rfl
    noDelay := armedClock_eq_armed_zero
    irqFlag := fun hi => h.irqFlag (by rwa [irq_setBits_busy] at hi) }

/-- A rise of `RESET` (R145). -/
theorem Block.Inv.cancelled (h : b.Inv p) :
    Block.Inv p { b with clock := .disarmed, status := setBits statusBusy b.status } :=
  { h with
    reservedStatus := reserved_setBits_busy h.reservedStatus
    busyOrCip := fun _ => .inl (busy_setBits _)
    clockHasWork := fun hc => absurd rfl hc
    noDelay := fun hc => nomatch hc
    irqFlag := fun hi => h.irqFlag (by rwa [irq_setBits_busy] at hi) }

/-- A write of the control latch (R145). -/
theorem Block.Inv.setCtrl (h : b.Inv p) (v : Byte) : Block.Inv p { b with ctrl := v } := { h with }

/-- A fatal fault (R402). -/
theorem Block.Inv.setFault (h : b.Inv p) (r : Option FatalReason) : Block.Inv p { b with fault := r } := { h with }

/-- A configuration write of a byte above the identification (R351, R354). -/
theorem Block.Inv.configured (h : b.Inv p) {i : Nat} (v : Byte) (hi : 2 ≤ i) : (b.configured i v).Inv p :=
  { h with
    adapterId := by
      rw [Block.cfgByte_configured v (by omega), Block.cfgByte_configured v (by omega)]
      exact h.adapterId
    enable := rfl }

end Operations

theorem resetEdge_blk_inv {s : State} (h : s.blk.Inv s.params) (old v : Byte) :
    (resetEdge old v s).blk.Inv s.params := by
  unfold resetEdge
  split
  · exact h.resetStarted _
  · split
    · exact h.cancelled
    · exact h

theorem resetEdge_frame (old v : Byte) (s : State) :
    (resetEdge old v s).params = s.params ∧ (resetEdge old v s).drive0 = s.drive0 ∧
      (resetEdge old v s).drive1 = s.drive1 := by
  unfold resetEdge
  repeat' split
  all_goals exact ⟨rfl, rfl, rfl⟩

theorem irqEnaEdge_frame (old v : Byte) (s : State) :
    (irqEnaEdge old v s).blk = s.blk ∧ (irqEnaEdge old v s).params = s.params ∧
      (irqEnaEdge old v s).drive0 = s.drive0 ∧ (irqEnaEdge old v s).drive1 = s.drive1 := by
  unfold irqEnaEdge
  repeat' split
  all_goals exact ⟨rfl, rfl, rfl, rfl⟩

/-! Host accesses and configuration calls. -/

/-- No access changes a creation argument or a drive (R48, R83). -/
theorem Access.frame {s t : State} (h : Access s t) : t.params = s.params ∧ t.drive0 = s.drive0 ∧ t.drive1 = s.drive1 := by
  cases h with
  | control v =>
    obtain ⟨-, hp, h0, h1⟩ := irqEnaEdge_frame s.blk.ctrl v ((resetEdge s.blk.ctrl v s).setCtrl v)
    obtain ⟨kp, k0, k1⟩ := resetEdge_frame s.blk.ctrl v s
    exact ⟨hp.trans kp, h0.trans k0, h1.trans k1⟩
  | _ => exact ⟨rfl, rfl, rfl⟩

theorem Access.block_inv {s t : State} (h : Access s t) (hinv : s.blk.Inv s.params) : t.blk.Inv s.params := by
  cases h with
  | unchanged => exact hinv
  | bus w => exact hinv
  | answer v => exact hinv
  | isr v => exact hinv.irqRead
  | pop v hlt => exact hinv.popped
  | control v =>
    rw [(irqEnaEdge_frame _ _ _).1]
    exact (resetEdge_blk_inv hinv _ _).setCtrl v
  | queued v hg hp hl => exact hinv.queued v hg hl
  | started v hg hp ht => exact hinv.started v _ ht
  | requested d hc => exact hinv.requested d hc
  | acknowledged => exact hinv.acknowledged
  | reset => exact hinv.resetStarted _
  | configured i v calls hi => exact hinv.configured v hi
  | fault r => exact hinv.setFault _

/-- An access keeps the invariant. -/
theorem Access.inv {s t : State} (h : Access s t) (hinv : s.Inv) : t.Inv := by
  obtain ⟨hp, h0, h1⟩ := h.frame
  exact ⟨hp ▸ h.block_inv hinv.block, h0 ▸ hinv.backing0, h1 ▸ hinv.backing1⟩

/-! Inside a firing. -/

/-- A state inside a firing of phase `p`: the invariant holds, the clock is disarmed and no reset is pending (R201, R202). -/
structure State.Firing (s : State) (p : Phase) : Prop where
  inv : s.Inv
  disarmed : s.blk.clock = .disarmed
  noReset : s.blk.resetPending = false
  phase : s.blk.phase = p
  active : p ≠ .idle

/-- The start of a firing keeps the invariant (R201). -/
theorem State.Inv.startFiring {s : State} (h : s.Inv) : s.startFiring.Inv :=
  ⟨{ h.block with clockHasWork := fun hc => absurd rfl hc, noDelay := fun hc => nomatch hc }, h.backing0, h.backing1⟩

theorem State.Inv.firing {s : State} (h : s.Inv) (hr : s.blk.resetPending = false) (ha : s.blk.phase ≠ .idle) :
    s.startFiring.Firing s.blk.phase := ⟨h.startFiring, rfl, hr, rfl, ha⟩

/-- An update of the block alone that keeps the block's invariant keeps the state's. -/
theorem State.Inv.of_block {s t : State} (h : s.Inv) (hp : t.params = s.params) (h0 : t.drive0 = s.drive0)
    (h1 : t.drive1 = s.drive1) (hb : t.blk.Inv s.params) : t.Inv :=
  ⟨hp ▸ hb, h0 ▸ h.backing0, h1 ▸ h.backing1⟩

/-- The completion of a reset (R456). -/
theorem State.Inv.resetComplete {s : State} (h : s.Inv) (hd : s.blk.clock = .disarmed) : s.resetComplete.Inv := by
  refine h.of_block (by simp) (by simp) (by simp) ?_
  rw [State.resetComplete_blk]
  exact { h.block with
    reservedStatus := (by decide : setBits statusIrq statusReport &&& (statusDmaen ||| statusIrqpend ||| statusCirf) = 0)
    statusLen := (by decide : 1 ≤ 9)
    statusPos := .inl rfl
    cmdPos := cmdPos_of_empty _
    oneCommand := fun _ => rfl
    commandWord := fun hp => absurd rfl hp
    busyOrCip := fun hw => absurd hw (by simp [Block.reported])
    clockHasWork := fun hc => absurd hd hc
    latch := rfl
    irqFlag := fun _ => rfl
    phaseP1 := fun hp => nomatch hp
    bufferCount := fun hp => nomatch hp }

end Sys2Proof.Machine
end

section
/-! PROOF. The command engine and the invariant: how a phase can end (R204, R206, R220, R261), what the checks at its top pass
on (R210 to R214, R231, R234, R404), and so what each phase of each command keeps, and that no firing is stuck. -/

namespace Sys2Proof.Machine
open Sys2Proof.Laws

/-! The ends of a phase. -/

/-- A report, a status value of a resolution and a post (R220, R224, R412). -/
theorem Block.Inv.reported {p : Params} {b : Block} (h : b.Inv p) (ha : b.phase ≠ .idle) (hd : b.clock = .disarmed)
    (hr : b.resetPending = false) {ws : List Word} (hl : ws.length ≤ 9) {v : Byte}
    (hv : v = statusReport ∨ v = statusNoReport) (dev : Target) (r : Reason) : (b.reported ws v dev r .idle).Inv p :=
  { h with
    reservedStatus := by
      obtain rfl | rfl := hv
      · exact (by decide : setBits statusIrq statusReport &&& (statusDmaen ||| statusIrqpend ||| statusCirf) = 0)
      · exact (by decide : setBits statusIrq statusNoReport &&& (statusDmaen ||| statusIrqpend ||| statusCirf) = 0)
    statusLen := hl
    statusPos := .inl rfl
    oneCommand := fun hp => absurd rfl hp
    commandWord := fun hp => absurd rfl hp
    busyOrCip := fun hw => absurd hw (by simp [Block.reported, h.oneCommand ha, hr])
    clockHasWork := fun hc => absurd hd hc
    latch := rfl
    irqFlag := fun _ => rfl
    phaseP1 := fun hp => nomatch hp
    bufferCount := fun hp => nomatch hp }

section Ends
variable {s : State} {p : Phase}

theorem State.Firing.phase_ne_idle (h : s.Firing p) : s.blk.phase ≠ .idle := by
  rw [h.phase]
  exact h.active

/-- A state inside a firing whose block is updated, the cursors still in order (R31, R34). -/
theorem State.Firing.of_block_inv {t : State} (h : s.Firing p) (ht : t.Inv) (hd : t.blk.clock = s.blk.clock)
    (hr : t.blk.resetPending = s.blk.resetPending) (hp : t.blk.phase = s.blk.phase) : t.Firing p :=
  ⟨ht, hd.trans h.disarmed, hr.trans h.noReset, hp.trans h.phase, h.active⟩

theorem State.Firing.reported_inv (h : s.Firing p) {ws : List Word} (hl : ws.length ≤ 9) {v : Byte}
    (hv : v = statusReport ∨ v = statusNoReport) (dev : Target) (r : Reason) :
    (s.blk.reported ws v dev r .idle).Inv s.params :=
  h.inv.block.reported h.phase_ne_idle h.disarmed h.noReset hl hv dev r

theorem State.Firing.fail_inv (h : s.Firing p) (e : ErrorCode) : (s.fail e).Inv :=
  h.inv.of_block (by simp) (by simp) (by simp)
    (State.fail_blk s e ▸ h.reported_inv (ws := s.errorWords e) (by simp [State.errorWords]) (.inl rfl) _ _)

theorem State.Firing.succeed_inv (h : s.Firing p) {ws : List Word} (hl : ws.length ≤ 9) : (s.succeed ws).Inv :=
  h.inv.of_block (by simp) (by simp) (by simp) (State.succeed_blk s ws ▸ h.reported_inv hl (.inl rfl) _ _)

theorem State.Firing.completeQuietly_inv (h : s.Firing p) : s.completeQuietly.Inv :=
  h.inv.of_block (by simp) (by simp) (by simp)
    (State.completeQuietly_blk s ▸ h.reported_inv (ws := []) (by simp) (.inr rfl) _ _)

/-- Arming the clock while a command is in execution (R203), as a suspension does (R232). -/
theorem State.Firing.arm_inv (h : s.Firing p) (t : Nat) : (s.arm t).Inv :=
  h.inv.of_block rfl rfl rfl
    { h.inv.block with clockHasWork := fun _ => .inl h.phase_ne_idle, noDelay := armedClock_eq_armed_zero }

/-- The end of a phase with the status value 0x20 and no post (R206, R224). -/
theorem State.Firing.endPhase_inv (h : s.Firing p) {q : Phase} (t : Nat) (hq : q ≠ .idle)
    (h1 : q = .p1 → s.blk.command ∈ [0x16#5, 0x17#5]) : (s.endPhase q t).Inv :=
  h.inv.of_block rfl rfl rfl
    { h.inv.block with
      reservedStatus := (by decide : statusInProgress &&& (statusDmaen ||| statusIrqpend ||| statusCirf) = 0)
      oneCommand := fun _ => h.inv.block.oneCommand h.phase_ne_idle
      commandWord := fun _ => h.inv.block.commandWord h.phase_ne_idle
      busyOrCip := fun _ => .inr (by decide : hasBit statusCip statusInProgress = true)
      clockHasWork := fun _ => .inl hq
      noDelay := armedClock_eq_armed_zero
      irqFlag := fun hi => absurd hi (by decide : ¬hasBit statusIrq statusInProgress = true)
      phaseP1 := fun hp => by
        have := h1 hp
        simp only [List.mem_cons, List.not_mem_nil, or_false] at this
        show s.blk.command ∈ codesWithP1
        rcases this with hc | hc <;> rw [hc] <;> decide
      bufferCount := fun hp hc => by
        have h16 := h1 hp
        replace hc : s.blk.command = 0x10 ∨ s.blk.command = 0x11 := hc
        rcases hc with hc | hc <;> rw [hc] at h16 <;> exact absurd h16 (by decide) }

/-- The end of P0 of a DMA command (R261, R270, R325). -/
theorem State.Firing.transferReady_inv (h : s.Firing p) (dev : Target) (hc : s.blk.command ∈ codesWithP1)
    (hb : s.blk.command = 0x10 ∨ s.blk.command = 0x11 → s.blk.sectorCount.toNat ≤ bufferSectors) :
    (s.transferReady dev).Inv := by
  refine h.inv.of_block (by simp) (by simp) (by simp) ?_
  rw [State.transferReady_blk]
  exact { h.inv.block with
    reservedStatus := (by decide : statusTransferReady &&& (statusDmaen ||| statusIrqpend ||| statusCirf) = 0)
    dataPos := Nat.zero_le _
    oneCommand := fun _ => h.inv.block.oneCommand h.phase_ne_idle
    commandWord := fun _ => h.inv.block.commandWord h.phase_ne_idle
    busyOrCip := fun _ => .inr (by decide : hasBit statusCip statusTransferReady = true)
    clockHasWork := fun _ => .inl Phase.noConfusion
    noDelay := armedClock_eq_armed_zero
    latch := rfl
    irqFlag := fun _ => rfl
    phaseP1 := fun _ => hc
    bufferCount := fun _ => hb }

/-- The loads of a setup phase, the sector cursor within the count (R34, R109, R110). -/
theorem State.Firing.load (h : s.Firing .p0) (r : BitVec 32) {k c : BitVec 16} (hk : k.toNat ≤ c.toNat) :
    State.Firing { s with blk := { s.blk with rba := r, sectorPos := k, sectorCount := c } } .p0 :=
  h.of_block_inv
    (h.inv.of_block rfl rfl rfl
      { h.inv.block with
        sectorPos := hk
        bufferCount := fun hp => nomatch h.phase.symm.trans hp })
    rfl rfl rfl

theorem State.Firing.load_zero (h : s.Firing .p0) (r : BitVec 32) (c : BitVec 16) :
    State.Firing { s with blk := { s.blk with rba := r, sectorPos := 0, sectorCount := c } } .p0 :=
  h.load r (k := 0) (Nat.zero_le _)

/-- The state after data movement, the sector cursor within the count (R34, R232). -/
theorem State.Firing.moved {t : State} (h : s.Firing p) (hm : Moved s t)
    (hk : t.blk.sectorPos.toNat ≤ s.blk.sectorCount.toNat) : t.Firing p := by
  have hb : t.blk.Inv s.params := by
    rw [hm.blk]
    exact { h.inv.block with
      dataPos := hm.dataPos h.inv.block.dataPos
      sectorPos := hk
      sectorBuf := hm.sectorBuf h.inv.block.sectorBuf }
  have ht : t.Inv := ⟨hm.params ▸ hb, hm.backing .drive0 h.inv.backing0, hm.backing .drive1 h.inv.backing1⟩
  refine h.of_block_inv ht ?_ ?_ ?_ <;> rw [hm.blk]

end Ends

/-! Whole phases. -/

/-- What a phase that began in `s` keeps: the invariant, however it ends; for a fatal fault, which gives the block of before
the step back, the invariant of the rest. It is never stuck. -/
def Flow.Keeps (s : State) : Flow → Prop
  | .cont t => t.Inv
  | .done t => t.Inv
  | .fatal _ t => t.params = s.params ∧ Memory.wf t.drive0.backing = true ∧ Memory.wf t.drive1.backing = true
  | .stuck _ => False

theorem State.Inv.fatal_keeps {s : State} (h : s.Inv) (r : FatalReason) (b : Block) :
    (Flow.fatal r { s with blk := b }).Keeps s := ⟨rfl, h.backing0, h.backing1⟩

section Checks
variable {s : State} {p : Phase}

theorem validate_keeps (h : s.Firing p) {body : DriveNo → Flow} (hb : ∀ d, (body d).Keeps s) :
    (validate s body).Keeps s := by
  cases ht : s.blk.cmdDev with
  | adapter =>
    rw [validate_adapter body ht]
    exact h.fail_inv _
  | drive d =>
    cases hp : (s.drive d).present with
    | false =>
      rw [validate_absent body ht hp]
      exact h.fail_inv _
    | true =>
      rw [validate_present body ht hp]
      exact hb d

theorem adapterOnly_keeps (h : s.Firing p) {body : Flow} (hb : body.Keeps s) : (adapterOnly s body).Keeps s := by
  cases ht : s.blk.cmdDev with
  | adapter =>
    rw [adapterOnly_adapter body ht]
    exact hb
  | drive d =>
    rw [adapterOnly_drive body ht]
    exact h.fail_inv _

theorem checkNoPendingIrq_keeps (h : s.Firing p) {body : Flow} (hb : body.Keeps s) :
    (checkNoPendingIrq s body).Keeps s := by
  unfold checkNoPendingIrq
  split
  · exact h.inv.fatal_keeps _ _
  · exact hb

theorem rangeCheck_keeps {t : State} (ht : t.Firing p) (d : DriveNo) {body : Flow} (hb : body.Keeps s) :
    (rangeCheck t d body).Keeps s := by
  unfold rangeCheck
  split
  · exact ht.fail_inv _
  · exact hb

theorem dmaGate_keeps (h : s.Firing p) {body : Flow} (hb : body.Keeps s) : (dmaGate s body).Keeps s := by
  unfold dmaGate
  split
  · exact hb
  · exact h.arm_inv _

/-- The sector cursor after `k` of at most `n` sectors, the count not passed (R34). -/
theorem sectorPos_le {a b c : BitVec 16} {k : Nat} (hk : a.toNat + k ≤ c.toNat) (hb : b = a + BitVec.ofNat 16 k) :
    b.toNat ≤ c.toNat := by
  have hc := c.isLt
  rw [hb, toNat_add_ofNat _ _ (by omega)]
  exact hk

/-- A data-movement loop over the sectors left, and the end of the phase (R232, R263, R272, R326, R330). -/
theorem Flow.Moves.keeps {x : Flow} (h : s.Firing p) (hx : x.Moves s s.sectorsLeft) (delay : State → Nat) :
    (x.andThen fun t => .done (t.endPhase .p2 (delay t))).Keeps s := by
  have hle := h.inv.block.sectorPos
  have hleft : s.blk.sectorPos.toNat + s.sectorsLeft = s.blk.sectorCount.toNat := by
    simp only [State.sectorsLeft]
    omega
  cases x with
  | cont t =>
    exact (h.moved hx.1 (sectorPos_le (Nat.le_of_eq hleft) hx.2)).endPhase_inv _ Phase.noConfusion fun hp => nomatch hp
  | done t =>
    obtain ⟨u, k, hm, hk, hpos, ht⟩ := hx
    have hu := h.moved hm (sectorPos_le (by omega) hpos)
    obtain rfl | rfl := ht
    · exact hu.arm_inv _
    · exact hu.fail_inv _
  | fatal r t => exact ⟨hx.params, hx.backing .drive0 h.inv.backing0, hx.backing .drive1 h.inv.backing1⟩
  | stuck f => exact hx

end Checks

/-! The phases of the commands. -/

section Phases
variable {s : State}

theorem driveCompletion_keeps (h : s.Firing .p2) : (driveCompletion s).Keeps s :=
  validate_keeps h fun _ => h.succeed_inv (ws := s.completionWords) (by simp [State.completionWords])

theorem transferSetup_keeps (h : s.Firing .p0) (hc : s.blk.command ∈ [0x01#5, 0x02#5, 0x04#5]) :
    (Machine.transferSetup s).Keeps s := by
  have hl : s.loadTransfer.Firing .p0 := h.load_zero s.blk.rbaOperand s.blk.countOperand
  have hcode : s.blk.command ∈ codesWithP1 ∧ ¬(s.blk.command = 0x10 ∨ s.blk.command = 0x11) := by
    simp only [List.mem_cons, List.not_mem_nil, or_false] at hc
    rcases hc with hc | hc | hc <;> rw [hc] <;> decide
  exact validate_keeps h fun d => rangeCheck_keeps hl d
    (hl.transferReady_inv _ hcode.1 fun hb => absurd hb hcode.2)

theorem readVerifySetup_keeps (h : s.Firing .p0) : (Machine.readVerifySetup s).Keeps s := by
  have hl : s.loadTransfer.Firing .p0 := h.load_zero s.blk.rbaOperand s.blk.countOperand
  exact validate_keeps h fun d => rangeCheck_keeps hl d
    (hl.endPhase_inv _ Phase.noConfusion fun hp => nomatch hp)

theorem seekSetup_keeps (h : s.Firing .p0) : (Machine.seekSetup s).Keeps s :=
  validate_keeps h fun d => rangeCheck_keeps h d (h.endPhase_inv _ Phase.noConfusion fun hp => nomatch hp)

theorem parkSetup_keeps (h : s.Firing .p0) : (parkSetup s).Keeps s :=
  validate_keeps h fun _ =>
    (h.load 0 h.inv.block.sectorPos).endPhase_inv _ Phase.noConfusion fun hp => nomatch hp

theorem formatUnitSetup_keeps (h : s.Firing .p0) (hc : s.blk.command = 0x16) : (Machine.formatUnitSetup s).Keeps s :=
  validate_keeps h fun d =>
    (h.load_zero (s.drive d).lastSector s.blk.countOperand).endPhase_inv _ Phase.noConfusion fun _ => by
      simp [hc]

theorem formatPrepareSetup_keeps (h : s.Firing .p0) (hc : s.blk.command = 0x17) : (formatPrepareSetup s).Keeps s :=
  validate_keeps h fun d =>
    (h.load_zero (s.drive d).lastSector s.blk.sectorCount).endPhase_inv _ Phase.noConfusion fun _ => by
      simp [hc]

theorem formatPrepareData_keeps (h : s.Firing .p1) : (formatPrepareData s).Keeps s :=
  validate_keeps h fun _ => h.endPhase_inv _ Phase.noConfusion fun hp => nomatch hp

theorem formatUnitData_keeps (h : s.Firing .p1) : (formatUnitData s).Keeps s := by
  refine validate_keeps h fun d => ?_
  have hm := storageZero_moved s d 0 ((s.drive d).lastSector.toNat + 1)
  have hb := storageZero_blk s d 0 ((s.drive d).lastSector.toNat + 1)
  generalize s.storageZero d 0 ((s.drive d).lastSector.toNat + 1) = x at hm hb
  obtain ⟨ok, u⟩ := x
  simp only at hm hb
  have hu : u.Firing .p1 := h.moved hm (by rw [hb]; exact h.inv.block.sectorPos)
  cases ok with
  | false => exact hu.fail_inv _
  | true => exact hu.endPhase_inv _ Phase.noConfusion fun hp => nomatch hp

theorem readData_keeps (h : s.Firing .p1) : (readData s).Keeps s :=
  validate_keeps h fun d => dmaGate_keeps h
    (Flow.Moves.keeps h (eachSector_moves _ _ s fun _ t _ _ => readSectorStep_moves d t) fun t => t.blk.acc)

theorem writeData_keeps (h : s.Firing .p1) : (writeData s).Keeps s :=
  validate_keeps h fun d => dmaGate_keeps h
    (Flow.Moves.keeps h (eachSector_moves _ _ s fun _ t _ _ => writeSectorStep_moves d t) fun t => t.blk.acc)

theorem bufferSetup_keeps (h : s.Firing .p0) (hc : s.blk.command = 0x10 ∨ s.blk.command = 0x11) :
    (bufferSetup s).Keeps s := by
  have hl := h.load_zero s.blk.rba s.blk.countOperand
  refine adapterOnly_keeps h ?_
  simp only
  split
  · exact h.inv.fatal_keeps _ _
  · rename_i hle
    refine hl.transferReady_inv _ ?_ fun _ => Nat.le_of_not_lt hle
    rcases hc with hc | hc <;> (simp only [hc]; decide)

/-- Every sector that a sector-buffer command still moves exists (R32, R325). -/
theorem sectorPos_lt_bufferSectors (h : s.Firing .p1) (hc : s.blk.command = 0x10 ∨ s.blk.command = 0x11) {k : Nat}
    {t : State} (hk : k < s.sectorsLeft) (ht : t.blk.sectorPos = s.blk.sectorPos + BitVec.ofNat 16 k) :
    t.blk.sectorPos.toNat < bufferSectors := by
  have hcount := h.inv.block.bufferCount h.phase hc
  have hlt := s.blk.sectorCount.isLt
  simp only [State.sectorsLeft] at hk
  rw [ht, toNat_add_ofNat _ _ (by omega)]
  omega

theorem bufferWriteData_keeps (h : s.Firing .p1) (hc : s.blk.command = 0x10 ∨ s.blk.command = 0x11) :
    (bufferWriteData s).Keeps s :=
  adapterOnly_keeps h (dmaGate_keeps h (Flow.Moves.keeps h
    (eachSector_moves _ _ s fun _ t hk ht => bufferWriteStep_moves t (sectorPos_lt_bufferSectors h hc hk ht))
    fun t => t.params.tBase))

theorem bufferReadData_keeps (h : s.Firing .p1) (hc : s.blk.command = 0x10 ∨ s.blk.command = 0x11) :
    (bufferReadData s).Keeps s :=
  adapterOnly_keeps h (dmaGate_keeps h (Flow.Moves.keeps h
    (eachSector_moves _ _ s fun _ t hk ht => bufferReadStep_moves t (sectorPos_lt_bufferSectors h hc hk ht))
    fun t => t.params.tBase))

theorem bufferCompletion_keeps (h : s.Firing .p2) : (bufferCompletion s).Keeps s :=
  adapterOnly_keeps h h.completeQuietly_inv

theorem QueryBody.keeps {p : Phase} {body : State → Flow} (hq : QueryBody body) (h : s.Firing p) : (body s).Keeps s := by
  cases hq with
  | deviceStatus =>
    exact validate_keeps h fun _ => checkNoPendingIrq_keeps h
      (h.succeed_inv (ws := s.deviceStatusWords) (by simp [State.deviceStatusWords]))
  | adapterConfig =>
    exact checkNoPendingIrq_keeps h (h.succeed_inv (ws := s.adapterConfigReport) (by simp [State.adapterConfigReport]))
  | driveConfig =>
    exact validate_keeps h fun d => checkNoPendingIrq_keeps h
      (h.succeed_inv (ws := s.driveConfigReport d) (by simp [State.driveConfigReport]))
  | positionInfo =>
    exact adapterOnly_keeps h (checkNoPendingIrq_keeps h
      (h.succeed_inv (ws := s.positionWords) (by simp [State.positionWords])))
  | diagnostic =>
    exact adapterOnly_keeps h (checkNoPendingIrq_keeps h (h.succeed_inv (ws := diagnosticWords) (by simp [diagnosticWords])))

/-- Every phase of every command keeps the invariant; a command without a phase P1 is never in it (R111). -/
theorem CommandPhases.keeps {c : BitVec 5} {p0 p1 p2 : State → Flow} {p : Phase} (hp : CommandPhases c p0 p1 p2)
    (h : s.Firing p) (hc : s.blk.command = c) : (bodyOf p0 p1 p2 p s).Keeps s := by
  have hp1 : p = .p1 → c ∈ codesWithP1 := fun e => hc ▸ h.inv.block.phaseP1 (h.phase.trans e)
  cases p with
  | idle => exact absurd rfl h.active
  | p0 =>
    cases hp with
    | read => exact transferSetup_keeps h (by rw [hc]; decide)
    | write hw =>
      simp only [List.mem_cons, List.not_mem_nil, or_false] at hw
      rcases hw with rfl | rfl <;> exact transferSetup_keeps h (by rw [hc]; decide)
    | readVerify => exact readVerifySetup_keeps h
    | seek => exact seekSetup_keeps h
    | parkHeads => exact parkSetup_keeps h
    | formatUnit => exact formatUnitSetup_keeps h hc
    | formatPrepare => exact formatPrepareSetup_keeps h hc
    | bufferWrite => exact bufferSetup_keeps h (.inl hc)
    | bufferRead => exact bufferSetup_keeps h (.inr hc)
    | query hq => exact hq.keeps h
    | unrecognized => exact h.fail_inv _
  | p1 =>
    cases hp with
    | read => exact readData_keeps h
    | write => exact writeData_keeps h
    | readVerify => exact absurd (hp1 rfl) (by decide)
    | seek => exact absurd (hp1 rfl) (by decide)
    | parkHeads => exact absurd (hp1 rfl) (by decide)
    | formatUnit => exact formatUnitData_keeps h
    | formatPrepare => exact formatPrepareData_keeps h
    | bufferWrite => exact bufferWriteData_keeps h (.inl hc)
    | bufferRead => exact bufferReadData_keeps h (.inr hc)
    | query hq => exact hq.keeps h
    | unrecognized => exact h.fail_inv _
  | p2 =>
    cases hp with
    | bufferWrite => exact bufferCompletion_keeps h
    | bufferRead => exact bufferCompletion_keeps h
    | query hq => exact hq.keeps h
    | unrecognized => exact h.fail_inv _
    | _ => exact driveCompletion_keeps h

/-- The outcome of a firing that keeps the invariant is a next state that keeps it. -/
theorem Flow.Keeps.outcome {s0 s : State} {x : Flow} (hx : x.Keeps s) (h0 : s0.Inv) (hp : s.params = s0.params) :
    ∃ t, x.outcome s0 = .next t ∧ t.Inv := by
  cases x with
  | cont t => exact ⟨t, rfl, hx⟩
  | done t => exact ⟨t, rfl, hx⟩
  | fatal r t =>
    obtain ⟨ht, hw0, hw1⟩ := hx
    exact ⟨_, rfl, (ht.trans hp) ▸ h0.block.setFault _, hw0, hw1⟩
  | stuck f => exact hx.elim

/-- A firing of the command in execution takes its step and keeps the invariant. -/
theorem CommandPhases.firing_inv {c : BitVec 5} {p0 p1 p2 : State → Flow} (hp : CommandPhases c p0 p1 p2)
    (h : s.Inv) (hc : s.blk.command = c) : ∃ t, firing p0 p1 p2 s = .next t ∧ t.Inv := by
  rw [firing_eq]
  split
  case isTrue => exact ⟨s, rfl, h⟩
  case isFalse =>
    split
    case isTrue => exact ⟨_, rfl, h.startFiring.resetComplete rfl⟩
    case isFalse hr =>
      cases hph : s.blk.phase with
      | idle => exact ⟨_, rfl, h.startFiring⟩
      | _ =>
        have hf := h.firing (by simpa using hr) (by rw [hph]; exact Phase.noConfusion)
        rw [hph] at hf
        exact (hp.keeps hf hc).outcome h rfl

end Phases

/-! Steps. -/

theorem cmd0Code_commandWord (b : Block) : cmd0Code b.commandWord = b.command := by
  rw [cmd0Code, Block.commandWord, BitVec.extractLsb'_append_eq_right]

theorem cmd0Dev_commandWord (b : Block) : cmd0Dev b.commandWord = b.cmdDev.code := by
  rw [cmd0Dev, Block.commandWord, BitVec.extractLsb'_append_eq_of_le (by decide)]
  exact BitVec.extractLsb'_append_eq_right

/-- The instruction that an agent's step decodes to takes its step and keeps the invariant: a firing's is a command with the
code in execution (R86, R202). -/
theorem exec_inv {s s' : State} {e : Event} {c : Code} {i : Instr} (h : s.Inv) (he : eventCode e s' = some c)
    (hb : s'.blk = s.blk) (hi : decode c = .ok i) : ∃ t, exec i s = .next t ∧ t.Inv := by
  by_cases hcmd : ∃ w, c = .cmd0 w
  · obtain ⟨w, rfl⟩ := hcmd
    obtain ⟨hrow, hcode⟩ := codeOf_of_decode_cmd0 hi
    obtain ⟨p0, p1, p2, hp, hexec⟩ := exec_command hrow
    have hw : w = s.blk.commandWord := by
      cases e with
      | fire => rw [← hb]; exact (Code.cmd0.inj (Option.some.inj he)).symm
      | io write word addr data =>
        simp only [eventCode] at he
        split at he <;> simp at he
      | attention b => simp [eventCode] at he
      | config op data => simp [eventCode] at he
    rw [hexec]
    exact hp.firing_inv h (by rw [hcode, hw, cmd0Code_commandWord])
  · obtain ⟨t, ht, hacc⟩ := exec_accesses (rowOf_of_decode hi fun w hw => hcmd ⟨w, hw⟩) s
    exact ⟨t, ht, hacc.inv h⟩

theorem State.Inv.setExt {s : State} (h : s.Inv) (e : External) : State.Inv { s with ext := e } :=
  ⟨h.block, h.backing0, h.backing1⟩

end Sys2Proof.Machine

section
open Sys2Proof Sys2Proof.Machine

/-- Settles O56: a step takes an entry off the schedule, which the invariant does not see, and then runs an access
(`Access.inv`) or a firing of the command in execution (`CommandPhases.keeps`). -/
theorem stepKeepsInvariant : Obligations.StepKeepsInvariant := by
  intro s t hinv hstep
  obtain ⟨-, hrest⟩ := step_cases hstep
  obtain ⟨-, rfl⟩ | ⟨e, rest, -, ⟨-, rfl⟩ | ⟨c, i, hcode, hdec, hexec⟩⟩ := hrest
  · exact hinv
  · exact hinv.setExt _
  · obtain ⟨u, hu, huinv⟩ := exec_inv (hinv.setExt { s.ext with schedule := rest }) hcode rfl hdec
    rw [hu] at hexec
    exact Host.Outcome.next.inj hexec ▸ huinv

end
end

section
/-! PROOF. Steps: what one takes from the schedule (R82, R402), that none is stuck (R119, R42), the request that is accepted
(R465) and the power-on state (R50). -/

namespace Sys2Proof.Machine
open Sys2Proof.Laws

/-! A step, by what the schedule gives. -/

section Scheduled
variable {s : State} {e : Event} {rest : List Event}

/-- The state with the first entry of the schedule taken. -/
def State.fetchedRest (s : State) (rest : List Event) : State := { s with ext := { s.ext with schedule := rest } }

theorem eventCode_fetchedRest (s : State) (e : Event) (rest : List Event) :
    eventCode e (s.fetchedRest rest) = eventCode e s := by
  cases e <;> rfl

theorem step_faulted {r : FatalReason} (h : s.blk.fault = some r) : step s = .fault (.halted r) := by
  simp only [step, h]

theorem step_unscheduled (hf : s.blk.fault = none) (hs : s.ext.schedule = []) : step s = .next s := by
  simp only [step, hf, fetch, hs]

theorem step_noCode (hf : s.blk.fault = none) (hs : s.ext.schedule = e :: rest) (hc : eventCode e s = none) :
    step s = .next (s.fetchedRest rest) := by
  rw [← eventCode_fetchedRest s e rest] at hc
  simp only [State.fetchedRest] at hc
  simp only [step, hf, fetch, hs, hc, State.fetchedRest]

theorem step_decoded {c : Code} {i : Instr} (hf : s.blk.fault = none) (hs : s.ext.schedule = e :: rest)
    (hc : eventCode e s = some c) (hi : decode c = .ok i) : step s = exec i (s.fetchedRest rest) := by
  rw [← eventCode_fetchedRest s e rest] at hc
  simp only [State.fetchedRest] at hc
  simp only [step, hf, fetch, hs, hc, hi, State.fetchedRest]

theorem step_undecoded {c : Code} {r : Reject} (hf : s.blk.fault = none) (hs : s.ext.schedule = e :: rest)
    (hc : eventCode e s = some c) (hr : decode c = .error r) : step s = .refused (.undecoded r) := by
  rw [← eventCode_fetchedRest s e rest] at hc
  simp only [State.fetchedRest] at hc
  simp only [step, hf, fetch, hs, hc, hr]

end Scheduled

/-! Every code but a configuration call with an index it does not take decodes (R119, R120). -/

/-- The row of a command word goes by three of its fields (R107). -/
theorem decodeCmd0_fields (w : Word) : decodeCmd0 (cmd0Word (cmd0Four w) (cmd0Dev w) (cmd0Code w)) = decodeCmd0 w := by
  unfold decodeCmd0
  rw [cmd0Code_cmd0Word, cmd0Dev_cmd0Word, cmd0Four_cmd0Word]

/-- A command word whose device field is a target's is a row (R101, R111). -/
theorem decode_cmd0_total {w : Word} {d : Target} (h : cmd0Dev w = d.code) : ∃ i, decode (.cmd0 w) = .ok i := by
  have hrow : ∀ (four : Bool) (code : BitVec 5), (decodeCmd0 (cmd0Word four d.code code)).toBool = true := by
    obtain _ | _ | _ := d <;> decide
  have hw := hrow (cmd0Four w) (cmd0Code w)
  rw [← h, decodeCmd0_fields] at hw
  cases e : decodeCmd0 w with
  | ok i => exact ⟨i, e⟩
  | error r => simp [e, Except.toBool] at hw

/-- The one code of a configuration call that is no row (R120). -/
theorem decode_cfgop_error {op : BitVec 5} {data : Byte} {r : Reject} (h : decode (.cfgop op data) = .error r) :
    r = .callTakesNoIndex ∧ 16 ≤ op.toNat ∧ op.toNat % 8 ≠ 0 := by
  have hop : ∀ op : BitVec 5, cfgopCall op = 2#2 ∨ cfgopCall op = 3#2 → cfgopIndex op ≠ 0 →
      16 ≤ op.toNat ∧ op.toNat % 8 ≠ 0 := by decide
  simp only [decode, decodeCfgop] at h
  split at h
  case h_1 => contradiction
  case h_2 =>
    repeat' split at h
    all_goals contradiction
  case h_3 h2 =>
    split at h
    · contradiction
    · exact ⟨(Except.error.inj h).symm, hop op (.inl h2) ‹_›⟩
  case h_4 h3 =>
    split at h
    · contradiction
    · exact ⟨(Except.error.inj h).symm, hop op (.inr h3) ‹_›⟩
  case h_5 =>
    exfalso
    clear h
    generalize cfgopCall op = c at *
    revert c
    decide

/-- The code of an agent's step decodes, or the step is a configuration call with an index it does not take. -/
theorem decode_eventCode_error {s : State} {e : Event} {c : Code} {r : Reject} (he : eventCode e s = some c)
    (hr : decode c = .error r) :
    ∃ op data, e = .config op data ∧ r = .callTakesNoIndex ∧ 16 ≤ op.toNat ∧ op.toNat % 8 ≠ 0 := by
  cases e with
  | io write word addr data =>
    simp only [eventCode] at he
    split at he
    · rename_i desc _
      obtain rfl := Option.some.inj he
      obtain ⟨i, hi⟩ := decode_port_total desc data
      rw [hi] at hr
      contradiction
    · contradiction
  | attention b =>
    obtain rfl := Option.some.inj he
    obtain ⟨i, hi⟩ := decode_attn_total b
    rw [hi] at hr
    contradiction
  | config op data =>
    obtain rfl := Option.some.inj he
    exact ⟨op, data, rfl, decode_cfgop_error hr⟩
  | fire =>
    obtain rfl := Option.some.inj he
    obtain ⟨i, hi⟩ := decode_cmd0_total (cmd0Dev_commandWord s.blk)
    rw [hi] at hr
    contradiction

/-! A quiet status register (R465). -/

theorem hasBit_statusBusy (v : Byte) : hasBit statusBusy v = v.getLsbD 4 := by
  decide +revert

theorem hasBit_statusCip (v : Byte) : hasBit statusCip v = v.getLsbD 5 := by
  decide +revert

/-- With `BUSY` and `CIP` clear no command is requested, executing or pending a reset (R465). -/
theorem Block.Inv.quiet {p : Params} {b : Block} (h : b.Inv p) (hbusy : b.status.getLsbD 4 = false)
    (hcip : b.status.getLsbD 5 = false) : b.cmdReqInProgress = false ∧ b.phase = .idle ∧ b.resetPending = false := by
  have hnot : ¬(b.cmdReqInProgress = true ∨ b.phase ≠ .idle ∨ b.resetPending = true) := fun hw => by
    have := h.busyOrCip hw
    rw [hasBit_statusBusy, hasBit_statusCip, hbusy, hcip] at this
    exact this.elim Bool.false_ne_true Bool.false_ne_true
  simpa only [not_or, Bool.not_eq_true, ne_eq, Decidable.not_not] using hnot

theorem commandInProgress_eq_false_iff (b : Block) :
    b.commandInProgress = false ↔ b.cmdReqInProgress = false ∧ b.phase = .idle ∧ b.resetPending = false := by
  simp [Block.commandInProgress, and_assoc]

theorem commandRequest_accepted {d : Target} {s : State} (h : s.blk.commandInProgress = false) :
    commandRequest d s = .next { s with blk := s.blk.requested d } := if_neg (by rw [h]; exact Bool.false_ne_true)

/-- Each command-request row makes the request to its target (R161). -/
theorem exec_commandRequests {r : Instr × Target} (hr : r ∈ commandRequests) {s : State} (h : s.blk.ioEnabled = true) :
    exec r.1 s = commandRequest r.2 s := by
  simp only [commandRequests, List.mem_cons, List.not_mem_nil, or_false] at hr
  obtain rfl | rfl | rfl := hr <;> exact if_pos h

end Sys2Proof.Machine

section
open Sys2Proof Sys2Proof.Machine

/-- Settles O58: an event whose code decodes takes its step (`exec_inv`); the only event whose code does not is the
configuration call of `decode_eventCode_error`. -/
theorem stepsAreNeverStuck : Obligations.StepsAreNeverStuck := by
  intro s hinv hf
  cases hs : s.ext.schedule with
  | nil => exact .inl ⟨s, step_unscheduled hf hs⟩
  | cons e rest =>
    cases hc : eventCode e s with
    | none => exact .inl ⟨_, step_noCode hf hs hc⟩
    | some c =>
      cases hd : decode c with
      | ok i =>
        obtain ⟨t, ht, -⟩ := exec_inv (s := s.fetchedRest rest) (hinv.setExt _) hc rfl hd
        exact .inl ⟨t, (step_decoded hf hs hc hd).trans ht⟩
      | error r =>
        obtain ⟨op, data, rfl, rfl, hop, hidx⟩ := decode_eventCode_error hc hd
        exact .inr ⟨op, data, rest, rfl, hop, hidx, step_undecoded hf hs hc hd⟩

/-- Settles O57: the invariant says that work in progress shows as `BUSY` or `CIP`, so with both clear the request finds
nothing in progress. -/
theorem quietStatusAcceptsRequest : Obligations.QuietStatusAcceptsRequest := by
  intro s hinv hio hf hbusy hcip
  have hquiet := hinv.block.quiet hbusy hcip
  have hnone := (commandInProgress_eq_false_iff s.blk).2 hquiet
  obtain ⟨hguard, hidle, hreset⟩ := hquiet
  refine ⟨hguard, hidle, hreset, fun r hr => ?_⟩
  have haccepted := commandRequest_accepted (d := r.2) hnone
  exact ⟨_, (exec_commandRequests hr hio).trans haccepted, hf, rfl⟩

/-- Settles O52: the two branches of a step. -/
theorem stepRunsDecodedInstruction : Obligations.StepRunsDecodedInstruction := fun _ =>
  ⟨fun _ _ _ _ hf hs hc hi => step_decoded hf hs hc hi, fun _ hf => step_faulted hf⟩

/-- Settles O53, by evaluation of the decoder. -/
theorem decodedWords : Obligations.DecodedWords := ⟨rfl, rfl, rfl, rfl, rfl, rfl, rfl⟩

/-- Settles O55: every register of power-on has its value, and its memories are empty (`reset_memories_wf`). -/
theorem resetKeepsInvariant : Obligations.ResetKeepsInvariant := by
  obtain ⟨hbuf, h0, h1⟩ := reset_memories_wf
  refine ⟨⟨?_, h0, h1⟩, ⟨rfl, rfl, rfl⟩, rfl, rfl, rfl⟩
  exact {
    reservedStatus := by decide
    statusLen := by decide
    statusPos := .inl rfl
    cmdPos := cmdPos_of_empty _
    dataPos := by decide
    oneCommand := fun h => absurd rfl h
    commandWord := fun h => absurd rfl h
    busyOrCip := fun h => absurd h (by decide)
    clockHasWork := fun h => absurd rfl h
    noDelay := fun h => nomatch h
    latch := rfl
    irqFlag := fun h => absurd h (by decide)
    sectorPos := by decide
    phaseP1 := fun h => nomatch h
    bufferCount := fun h => nomatch h
    adapterId := ⟨rfl, rfl⟩
    enable := rfl
    sectorBuf := hbuf }

end
end

section
/-! PROOF. The register interface in full (40_register_interface.md): the status queue drained (R182), reports (R220), the
Basic-Control and Command-Interface writes (R145, R175), the attention rows (R161 to R166), the unwired rows (R143), and every
host row while the interface is unbound (R80). -/

namespace Sys2Proof.Machine

/-! Reports (R220). -/

/-- Words written from index `i` on: inside them the queue holds the list, outside them what it held. -/
theorem writeWords_getElem (ws : List Word) (q : Vector Word 256) (i j : Nat) (hj : j < 256) :
    (writeWords q i ws)[j] = if i ≤ j then ws.getD (j - i) q[j] else q[j] := by
  induction ws generalizing q i with
  | nil => simp [writeWords]
  | cons w ws ih =>
    rw [writeWords, ih, Vector.getElem_setIfInBounds]
    rcases Nat.lt_trichotomy i j with h | rfl | h
    · obtain ⟨k, hk⟩ : ∃ k, j - i = k + 1 := ⟨j - i - 1, by omega⟩
      have hk' : j - (i + 1) = k := by omega
      have h1 : i + 1 ≤ j := h
      have h2 : i ≤ j := Nat.le_of_lt h
      have h3 : i ≠ j := Nat.ne_of_lt h
      rw [if_pos h1, if_pos h2, if_neg h3, hk, hk', List.getD_cons_succ]
    · have h1 : ¬ i + 1 ≤ i := by omega
      rw [if_neg h1, if_pos rfl, if_pos (Nat.le_refl i), Nat.sub_self, List.getD_cons_zero]
    · have h1 : ¬ i + 1 ≤ j := by omega
      have h2 : ¬ i ≤ j := by omega
      have h3 : i ≠ j := by omega
      simp [h1, h2, h3]

theorem writeWords_eq_overlay (q : Vector Word 256) (ws : List Word) : writeWords q 0 ws = overlay ws q := by
  apply Vector.ext
  intro j hj
  rw [writeWords_getElem, overlay_getElem _ _ _ hj, if_pos (Nat.zero_le j), Nat.sub_zero]

/-! The status queue (R181, R182). -/

theorem statusQueue_getD (q : Vector Word 256) (j : Nat) : q.getD j 0 = q.toList.getD j 0 := by
  unfold Vector.getD List.getD
  by_cases h : j < 256 <;> simp [h]

section Drain
variable {s : State}

/-- What a read leaves of the outside. -/
def State.readOut (s : State) (w : Word) : External := { s.ext with result := .word w }

theorem exec_rdSir_inside (hs : s.blk.ioEnabled = true) (h : s.blk.statusPos + 1 < s.blk.statusLen) :
    exec .rdSir s = .next { s with
      blk := { s.blk with statusPos := s.blk.statusPos + 1 }
      ext := s.readOut (s.blk.statusQueue.toList.getD s.blk.statusPos 0) } := by
  rw [exec_rdSir_bound hs, if_neg (by omega), Block.popped_eq, if_pos h, statusQueue_getD]
  rfl

theorem exec_rdSir_last (hs : s.blk.ioEnabled = true) (h : s.blk.statusPos + 1 = s.blk.statusLen) :
    exec .rdSir s = .next { s with
      blk := { s.blk with status := s.blk.status &&& 0xF7, statusPos := 0, statusLen := 0 }
      ext := s.readOut (s.blk.statusQueue.toList.getD s.blk.statusPos 0) } := by
  rw [exec_rdSir_bound hs, if_neg (by omega), Block.popped_eq, if_neg (by omega), statusQueue_getD]
  rfl

theorem exec_rdSir_past (hs : s.blk.ioEnabled = true) (h : s.blk.statusLen ≤ s.blk.statusPos) :
    exec .rdSir s = .next { s with ext := s.readOut 0x0000 } := by
  rw [exec_rdSir_bound hs, if_pos h]
  rfl

/-- One read in front of `n` more. -/
theorem sirReads_succ {t : State} {w : Word} (n : Nat) (h : exec .rdSir s = .next t) (hw : t.ext.result = .word w) :
    sirReads (n + 1) s = (sirReads n t).map fun r => (w :: r.1, r.2) := by
  simp only [sirReads, h, hw]

/-- Reads that stay inside the report return its words from the cursor on and move the cursor (R182). -/
theorem sirReads_inside (k : Nat) (hs : s.blk.ioEnabled = true) (hk : s.blk.statusPos + k < s.blk.statusLen)
    (hl : s.blk.statusLen ≤ 256) :
    ∃ u, sirReads k s = some ((s.blk.statusQueue.toList.drop s.blk.statusPos).take k, u) ∧
      u.blk = { s.blk with statusPos := s.blk.statusPos + k } := by
  induction k generalizing s with
  | zero => exact ⟨s, by simp [sirReads], rfl⟩
  | succ k ih =>
    have hread := exec_rdSir_inside hs (by omega)
    obtain ⟨u, hu, hblk⟩ := ih (s := { s with
      blk := { s.blk with statusPos := s.blk.statusPos + 1 }
      ext := s.readOut (s.blk.statusQueue.toList.getD s.blk.statusPos 0) }) hs (by simp only; omega) hl
    refine ⟨u, ?_, ?_⟩
    · rw [sirReads_succ k hread rfl, hu, drop_take_succ _ _ _ (by simp; omega)]
      rfl
    · rw [hblk]
      simp only [Nat.add_assoc, Nat.add_comm 1 k]

/-- The reads of all that is left of the report clear `SOF` and empty the queue (R182). -/
theorem sirReads_drain (k : Nat) (hs : s.blk.ioEnabled = true) (hk : s.blk.statusPos + (k + 1) = s.blk.statusLen)
    (hl : s.blk.statusLen ≤ 256) :
    sirReads (k + 1) s = some ((s.blk.statusQueue.toList.drop s.blk.statusPos).take (k + 1), { s with
      blk := { s.blk with status := s.blk.status &&& 0xF7, statusPos := 0, statusLen := 0 }
      ext := s.readOut (s.blk.statusQueue.toList.getD (s.blk.statusLen - 1) 0) }) := by
  induction k generalizing s with
  | zero =>
    rw [sirReads_succ 0 (exec_rdSir_last hs (by omega)) rfl, drop_take_succ _ _ _ (by simp; omega), sirReads,
      show s.blk.statusLen - 1 = s.blk.statusPos by omega]
    simp
  | succ k ih =>
    have hrest := ih (s := { s with
      blk := { s.blk with statusPos := s.blk.statusPos + 1 }
      ext := s.readOut (s.blk.statusQueue.toList.getD s.blk.statusPos 0) }) hs (by simp only; omega) hl
    rw [sirReads_succ (k + 1) (exec_rdSir_inside hs (by omega)) rfl, hrest, drop_take_succ _ _ (k + 1) (by simp; omega)]
    rfl

end Drain

/-! The Basic-Control write (R145, R146). -/

/-- What a change of `RESET` does, by its two edges (R145). -/
theorem resetEdge_eq (v : Byte) (s : State) :
    let falls := s.blk.ctrl.getLsbD 7 && !v.getLsbD 7
    let rises := !s.blk.ctrl.getLsbD 7 && v.getLsbD 7
    resetEdge s.blk.ctrl v s = { s with blk := { s.blk with
      resetPending := s.blk.resetPending || falls
      clock := if falls then armedClock s.params s.params.tReset else if rises then .disarmed else s.blk.clock
      status := if falls || rises then s.blk.status ||| 0x10 else s.blk.status } } := by
  unfold resetEdge ctrlReset
  cases s.blk.ctrl.getLsbD 7 <;> cases v.getLsbD 7
  · simp
  · simp [State.disarm, State.setBusy, State.setStatus, setBits_statusBusy]
  · simp [State.resetStart_eq]
  · simp

/-- What a change of `IRQ_ENA` does (R145, R413). -/
theorem irqEnaEdge_eq (old v : Byte) (s : State) :
    let calls :=
      if s.blk.irqLatch = true ∧ old.getLsbD 0 = false ∧ v.getLsbD 0 = true then
        .irqRaise s.params.irqLineNo :: s.ext.calls
      else if s.blk.irqLatch = true ∧ old.getLsbD 0 = true ∧ v.getLsbD 0 = false then
        .irqLower s.params.irqLineNo :: s.ext.calls
      else s.ext.calls
    irqEnaEdge old v s = { s with ext := { s.ext with calls := calls } } := by
  unfold irqEnaEdge ctrlIrqEna
  cases s.blk.irqLatch <;> cases old.getLsbD 0 <;> cases v.getLsbD 0 <;>
    simp [State.irqRaise, State.irqLower, State.call]

/-! Host rows by their shape (R80, R140). -/

/-- Every host write is a write that reaches the block only while the interface is bound. -/
theorem exec_hostWrites {v : Byte} {w : Word} {req : BitVec 4} {i : Instr} (hi : i ∈ hostWrites v w req) :
    ∃ body : State → StepResult, ∀ s, exec i s = hostWrite s body := by
  revert i
  simp only [hostWrites, unwiredWrites, badDevices, badRequests, endsOfInterrupt, commandRequests, List.map_cons,
    List.map_nil, List.cons_append, List.nil_append, List.forall_mem_cons]
  and_intros
  all_goals first
    | exact ⟨_, fun _ => rfl⟩
    | simp

theorem exec_byteReads {i : Instr} (hi : i ∈ [Instr.rdStatus, .rdIsr] ++ unwiredByteReads) :
    ∃ body : State → StepResult, ∀ s, exec i s = hostRead .byte s body := by
  revert i
  simp only [unwiredByteReads, List.cons_append, List.nil_append, List.forall_mem_cons]
  and_intros
  all_goals first
    | exact ⟨_, fun _ => rfl⟩
    | simp

theorem exec_wordReads {i : Instr} (hi : i ∈ [Instr.rdSir] ++ unwiredWordReads) :
    ∃ body : State → StepResult, ∀ s, exec i s = hostRead .word s body := by
  revert i
  simp only [unwiredWordReads, List.cons_append, List.nil_append, List.forall_mem_cons]
  and_intros
  all_goals first
    | exact ⟨_, fun _ => rfl⟩
    | simp

/-- While the interface is bound every unwired row faults (R143). -/
theorem exec_unwired {v : Byte} {w : Word} {i : Instr} (hi : i ∈ unwiredByteReads ++ unwiredWordReads ++ unwiredWrites v w)
    {s : State} (hs : s.blk.ioEnabled = true) : exec i s = .next (s.faulted .unwiredPort) := by
  revert i
  simp only [unwiredByteReads, unwiredWordReads, unwiredWrites, List.cons_append, List.nil_append, List.forall_mem_cons]
  and_intros
  all_goals first
    | exact if_pos hs
    | simp

theorem exec_badDevices {req : BitVec 4} {i : Instr} (hi : i ∈ badDevices req) {s : State}
    (hs : s.blk.ioEnabled = true) : exec i s = .next (s.faulted .badAttentionDevice) := by
  simp only [badDevices, List.mem_cons, List.not_mem_nil, or_false] at hi
  obtain rfl | rfl | rfl | rfl | rfl := hi <;> exact if_pos hs

theorem exec_badRequests {i : Instr} (hi : i ∈ badRequests) {s : State} (hs : s.blk.ioEnabled = true) :
    exec i s = .next (s.faulted .badAttentionRequest) := by
  revert i
  simp only [badRequests, List.forall_mem_cons]
  and_intros
  all_goals first
    | exact if_pos hs
    | simp

theorem exec_endsOfInterrupt {i : Instr} (hi : i ∈ endsOfInterrupt) {s : State} (hs : s.blk.ioEnabled = true) :
    exec i s = endOfInterrupt s := by
  simp only [endsOfInterrupt, List.mem_cons, List.not_mem_nil, or_false] at hi
  obtain rfl | rfl | rfl := hi <;> exact if_pos hs

theorem commandInProgress_eq_true_iff (b : Block) :
    b.commandInProgress = true ↔ b.cmdReqInProgress = true ∨ b.phase ≠ .idle ∨ b.resetPending = true := by
  simp [Block.commandInProgress, or_assoc]

end Sys2Proof.Machine

section
open Sys2Proof Sys2Proof.Machine

/-- Settles O19: word by word, the list laid over the queue. -/
theorem reportWritesQueue : Obligations.ReportWritesQueue := by
  intro s ws _
  rw [← writeWords_eq_overlay]
  rfl

/-- Settles O4: by induction on the reads, `sirReads_inside` before the last word of the report and `sirReads_drain` with
it. -/
theorem statusQueueDrainsInOrder : Obligations.StatusQueueDrainsInOrder := by
  intro s hs hpos hlen hmax
  constructor
  · intro k hk
    obtain ⟨u, hu, hblk⟩ := sirReads_inside k hs (by omega) hmax
    rw [hpos, List.drop_zero] at hu
    rw [hpos, Nat.zero_add] at hblk
    exact ⟨u, hu, hblk⟩
  · obtain ⟨k, hk⟩ : ∃ k, s.blk.statusLen = k + 1 := ⟨s.blk.statusLen - 1, by omega⟩
    have hdrain := sirReads_drain k hs (by omega) hmax
    rw [hpos, List.drop_zero, ← hk] at hdrain
    refine ⟨_, hdrain, ?_, ?_⟩
    · rw [statusQueue_getD]
      rfl
    · exact exec_rdSir_past hs (Nat.le_refl _)

/-- Settles O5: the two edges of `RESET`, then the edge of `IRQ_ENA` on the latch as it was. -/
theorem controlWriteEffect : Obligations.ControlWriteEffect := by
  intro v s hs falls rises b calls
  have hexec : exec (.wrCtrl v) s = .next (irqEnaEdge s.blk.ctrl v ((resetEdge s.blk.ctrl v s).setCtrl v)) := if_pos hs
  rw [hexec, resetEdge_eq, irqEnaEdge_eq]
  exact ⟨rfl, rfl⟩

/-- Settles O7. -/
theorem unwiredAccessFaults : Obligations.UnwiredAccessFaults := fun _ _ _ hi _ hs => exec_unwired hi hs

/-- Settles O8: each row is a host write or a host read, which an unbound interface keeps from the block. -/
theorem unboundAccessReachesNothing : Obligations.UnboundAccessReachesNothing := by
  intro s hs
  have hunbound : ¬s.blk.ioEnabled = true := by rw [hs]; exact Bool.false_ne_true
  refine ⟨fun v w req i hi => ?_, fun i hi => ?_, fun i hi => ?_⟩
  · obtain ⟨body, hbody⟩ := exec_hostWrites hi
    exact (hbody s).trans (if_neg hunbound)
  · obtain ⟨body, hbody⟩ := exec_byteReads hi
    exact (hbody s).trans (if_neg hunbound)
  · obtain ⟨body, hbody⟩ := exec_wordReads hi
    exact (hbody s).trans (if_neg hunbound)

/-- Settles O6: the guard, the full queue, the block not complete, and the target of a complete one (`blockComplete`). -/
theorem commandWordWrite : Obligations.CommandWordWrite := by
  intro v s hs q word0
  have hexec : exec (.wrCir v) s = _ := if_pos hs
  rw [hexec]
  cases hg : s.blk.cmdReqInProgress with
  | false => rfl
  | true =>
    simp only [not_true_eq_false, if_false, Bool.true_eq_false]
    by_cases hfull : 4 ≤ s.blk.cmdPos
    · rw [if_pos hfull, if_pos hfull]
      rfl
    · rw [if_neg hfull, if_neg hfull]
      have hlen : (s.blk.queued v).cmdPos = blockLength ((s.blk.queued v).cmdWord 0) ↔
          s.blk.cmdPos + 1 = if word0.getLsbD 14 then 4 else 2 := Iff.rfl
      rw [ite_not]
      refine ite_congr (propext hlen) (fun _ => ?_) fun _ => ?_
      · rw [blockComplete]
        exact ite_congr rfl (fun _ => rfl) fun _ => rfl
      · rfl

/-- Settles O10: the request of each row is `commandRequest` to its target. -/
theorem commandRequestEffect : Obligations.CommandRequestEffect := by
  intro r hr s hs
  rw [exec_commandRequests hr hs, commandRequest]
  simp only [commandInProgress_eq_true_iff]
  rfl

/-- Settles O11: the three rows are one operation, whatever the device code. -/
theorem endOfInterruptClears : Obligations.EndOfInterruptClears := fun _ hi s hs => by
  rw [exec_endsOfInterrupt hi hs, endOfInterrupt_eq]

/-- Settles O13. -/
theorem badAttentionFaults : Obligations.BadAttentionFaults := fun _ hs =>
  ⟨fun _ _ hi => exec_badDevices hi hs, fun _ hi => exec_badRequests hi hs⟩

end
end

section
/-! PROOF. Firings without data movement: a pending reset and an idle engine (R207, R456), the checks at the top of a phase
(R210 to R214, R231, R234, R404), the setup and completion phases (R235, R278 to R288, R325 to R331), and the queries (R310 to
R335). -/

namespace Sys2Proof.Machine
open Sys2Proof.Laws

/-! Every command is a firing (R202). -/

theorem rowOf_commands {four : Bool} {dev : BitVec 3} {i : Instr} (hi : i ∈ commands four dev) : (rowOf i).1 = .cmd0 := by
  revert i
  simp only [commands, driveCommands, adapterCommands, configCommands, unrecognizedCommands, List.cons_append,
    List.nil_append, List.forall_mem_cons]
  and_intros
  all_goals first
    | rfl
    | simp

theorem firing_idle {p0 p1 p2 : State → Flow} {s : State} (hd : s.blk.clock ≠ .disarmed) (hr : s.blk.resetPending = false)
    (hp : s.blk.phase = .idle) : firing p0 p1 p2 s = .next s.startFiring :=
  firing_runs ⟨hd, hr, hp⟩

/-! The checks at the top of a firing. -/

section Checks
variable {s : State} {d : DriveNo}

/-- A fatal fault raised before the phase has called anything (R402). -/
theorem fatal_outcome (s : State) (r : FatalReason) (b : Block) :
    (Flow.fatal r { s with blk := b }).outcome s = .next (s.faulted r) := rfl

theorem validate_startFiring (h : s.Addresses d) (body : DriveNo → Flow) : validate s.startFiring body = body d :=
  validate_present (s := s.startFiring) body h.target ((State.startFiring_drive s d).symm ▸ h.present)

theorem State.validated_of_addresses (h : s.Addresses d) (f : DriveNo → State) : s.validated f = f d := by
  simp only [State.validated, h.target, h.present, if_true]

/-- A `Validate` on the adapter ends the firing with the not-supported report (R212, R239). -/
theorem ValidatesIn.exec_adapter {p : Phase} {i : Instr} (hi : ValidatesIn p i) (hs : s.Runs p)
    (hdev : s.blk.cmdDev = .adapter) : exec i s = .next (s.failed s.params.errUnsupported) := by
  obtain ⟨body, hbody⟩ := hi
  rw [hbody s hs, validate_adapter (s := s.startFiring) _ hdev, Flow.outcome_done, State.unsupported,
    State.fail_startFiring, State.startFiring_params]

/-- An `AdapterOnly` on a drive ends the firing with the not-supported report (R211, R239). -/
theorem adapterOnly_drive_outcome (h : s.blk.cmdDev = .drive d) (body : Flow) :
    (adapterOnly s.startFiring body).outcome s = .next (s.failed s.params.errUnsupported) := by
  rw [adapterOnly_drive (s := s.startFiring) body h, Flow.outcome_done, State.unsupported, State.fail_startFiring,
    State.startFiring_params]

/-- Every phase of an adapter-only command begins with `AdapterOnly` (R211). -/
theorem exec_adapterCommands_drive {four : Bool} {dev : BitVec 3} {i : Instr} {p : Phase}
    (hi : i ∈ adapterCommands four dev) (hs : s.Runs p) (hp : p ≠ .idle) (h : s.blk.cmdDev = .drive d) :
    exec i s = .next (s.failed s.params.errUnsupported) := by
  simp only [adapterCommands, List.mem_cons, List.not_mem_nil, or_false] at hi
  obtain rfl | rfl | rfl | rfl := hi
  all_goals
    refine (firing_runs hs).trans ?_
    cases p with
    | idle => exact absurd rfl hp
    | p0 => exact adapterOnly_drive_outcome h _
    | p1 => exact adapterOnly_drive_outcome h _
    | p2 => exact adapterOnly_drive_outcome h _

theorem dmaGate_startFiring_closed (h : s.blk.ctrl.getLsbD 1 = false) (body : Flow) :
    (dmaGate s.startFiring body).outcome s =
      .next { s with blk := { s.blk with clock := armedClock s.params s.params.tBase, acc := 0 } } := by
  rw [dmaGate_closed (s := s.startFiring) body h]
  rfl

/-- A query with no interrupt pending succeeds with its report (R404). -/
theorem query_clear_outcome (h : s.blk.status.getLsbD 0 = false) (hi : s.blk.irqInProgress = false) (ws : List Word) :
    (checkNoPendingIrq s.startFiring (.done (s.startFiring.succeed ws))).outcome s = .next (s.succeeded ws) := by
  rw [checkNoPendingIrq_clear (s := s.startFiring) _ h hi, Flow.outcome_done, State.succeed_startFiring]

theorem query_pending_outcome (h : s.blk.status.getLsbD 0 = true ∨ s.blk.irqInProgress = true) (body : Flow) :
    (checkNoPendingIrq s.startFiring body).outcome s = .next (s.faulted .irqAlreadyPending) := by
  rw [checkNoPendingIrq_pending (s := s.startFiring) body h]
  rfl

end Checks

/-! Setup phases. -/

theorem readVerifySetup_outcome (s : State) :
    (Machine.readVerifySetup s.startFiring).outcome s =
      .next (s.validated fun d => s.loaded.checked d (s.loaded.advanced .p2
        (s.params.tBase + Config.readTime d s.loaded.blk.rba s.loaded.blk.sectorCount.toNat))) := by
  refine validate_startFiring_outcome fun d => ?_
  rw [State.loadTransfer_startFiring, rangeCheck_startFiring_done, State.endPhase_startFiring, Flow.outcome_done,
    Nat.add_comm s.params.tBase]
  rfl

theorem seekSetup_outcome (s : State) :
    (Machine.seekSetup s.startFiring).outcome s =
      .next (s.validated fun d => s.checked d (s.advanced .p2 (s.params.tBase + Config.seekTime d s.blk.rba))) := by
  refine validate_startFiring_outcome fun d => ?_
  rw [rangeCheck_startFiring_done, State.endPhase_startFiring, Flow.outcome_done, Nat.add_comm s.params.tBase]
  rfl

theorem formatUnitSetup_outcome (s : State) :
    (Machine.formatUnitSetup s.startFiring).outcome s = .next (s.validated fun d =>
      State.advanced
        { s with blk := { s.blk with rba := (s.drive d).lastSector, sectorPos := 0, sectorCount := s.blk.cmdWord 1 } }
        .p1 s.params.tBase) := by
  refine validate_startFiring_outcome fun d => ?_
  rw [Flow.outcome_done, State.startFiring_drive]
  exact congrArg Host.Outcome.next (State.endPhase_startFiring
    { s with blk := { s.blk with rba := (s.drive d).lastSector, sectorPos := 0, sectorCount := s.blk.cmdWord 1 } } _ _)

/-- P0 of the sector-buffer commands for the adapter (R325, R329). -/
theorem bufferSetup_outcome {s : State} (h : s.blk.cmdDev = .adapter) :
    (bufferSetup s.startFiring).outcome s =
      if 256 < (s.blk.cmdWord 1).toNat then .next (s.faulted .sectorBufferCount)
      else .next
        (State.ready { s with blk := { s.blk with sectorPos := 0, sectorCount := s.blk.cmdWord 1 } } .adapter) := by
  rw [bufferSetup, adapterOnly_adapter (s := s.startFiring) _ h]
  by_cases hover : 256 < (s.blk.cmdWord 1).toNat
  · rw [if_pos hover]
    exact congrArg (Flow.outcome s) (if_pos hover)
  · rw [if_neg hover]
    refine (congrArg (Flow.outcome s) (if_neg hover)).trans (congrArg Host.Outcome.next ?_)
    exact State.transferReady_startFiring
      { s with blk := { s.blk with sectorPos := 0, sectorCount := s.blk.cmdWord 1 } } _

/-- The loaded RBA has 28 bits and the count 16 (R109, R110). -/
theorem State.loaded_sum_lt (s : State) : s.loaded.blk.rba.toNat + s.loaded.blk.sectorCount.toNat < 2 ^ 29 := by
  have hcount := (s.blk.cmdWord 1).isLt
  have hrba : ((s.blk.cmdWord 3 ++ s.blk.cmdWord 2) &&& 0x0FFFFFFF#32).toNat ≤ (0x0FFFFFFF#32).toNat := by
    rw [BitVec.toNat_and]
    exact Nat.and_le_right
  replace hrba : s.loaded.blk.rba.toNat ≤ 0x0FFFFFFF := hrba
  replace hcount : s.loaded.blk.sectorCount.toNat < 2 ^ 16 := hcount
  omega

/-- The range check of the loaded operands, of a drive that `s` and `s.loaded` share (R234). -/
theorem State.loaded_checked (s t : State) (d : DriveNo) :
    s.loaded.checked d t =
      if (s.drive d).lastSector.toNat < s.loaded.blk.rba.toNat + s.loaded.blk.sectorCount.toNat then
        s.loaded.failed s.params.errRbaRange
      else t := by
  cases d <;> rfl

/-- P0 of a command that loads and checks its operands: what it goes on with if the range check passes (R234). -/
theorem exec_setup_checked {four : Bool} {dev : BitVec 3} {i : Instr} {s : State} {d : DriveNo}
    (hi : i ∈ [Instr.read four dev, .write four dev, .writeVerify four dev, .readVerify four dev]) (hs : s.Runs .p0)
    (hd : s.Addresses d) :
    ∃ t, exec i s = .next (s.loaded.checked d t) ∧ t.blk.phase ≠ .idle ∧ t.blk.rba = s.loaded.blk.rba ∧
      t.blk.sectorCount = s.loaded.blk.sectorCount := by
  simp only [List.mem_cons, List.not_mem_nil, or_false] at hi
  have hready : (Machine.transferSetup s.startFiring).outcome s =
      .next (s.loaded.checked d (s.loaded.ready s.blk.cmdDev)) := by
    rw [transferSetup_outcome, State.validated_of_addresses hd]
  have hverify := readVerifySetup_outcome s
  rw [State.validated_of_addresses hd] at hverify
  obtain rfl | rfl | rfl | rfl := hi
  · exact ⟨_, (firing_runs hs).trans hready, Phase.noConfusion, rfl, rfl⟩
  · exact ⟨_, (firing_runs hs).trans hready, Phase.noConfusion, rfl, rfl⟩
  · exact ⟨_, (firing_runs hs).trans hready, Phase.noConfusion, rfl, rfl⟩
  · exact ⟨_, (firing_runs hs).trans hverify, Phase.noConfusion, rfl, rfl⟩

/-! The configuration block (R351 to R356). -/

theorem cfg_getD (bytes : Vector Byte 8) {i : Nat} (h : i < 8) : bytes.getD i 0 = bytes[i] := by
  simp [Vector.getD, h]

theorem Block.cfgByte_eq (b : Block) {i : Nat} (h : i < 8) : b.cfgByte i = b.cfg[i] := cfg_getD b.cfg h

theorem Block.cfgPair_eq (b : Block) {i : Nat} (h : i + 1 < 8) : b.cfgPair i = b.cfg[i + 1] ++ b.cfg[i] := by
  rw [Block.cfgPair, b.cfgByte_eq h, b.cfgByte_eq]

/-- The block after a configuration write, decoded from the bytes with the new one among them (R352, R354). -/
theorem Block.configured_eq (b : Block) (i : Nat) (v : Byte) :
    let bytes := b.cfg.setIfInBounds i v
    let f := bytes[2].extractLsb' 2 4
    b.configured i v = { b with
      cfg := bytes, dmaChannel := if f = 2 ∨ 8 ≤ f.toNat then b.dmaChannel else f.setWidth 3
      ioEnabled := bytes[2].getLsbD 0 } := by
  simp only [Block.configured, decodeDma, dmaField, cfgEnable, cfg_getD _ (show 2 < 8 by decide)]

/-- The ROM steps of a configuration write, before the calls made already (R353, R358). -/
theorem romCalls_append (p : Variant) (b : Block) (calls : List Call) :
    let rom := .romPlace b.cfg[3] :: .romDisable :: calls
    romCalls p b ++ calls =
      if p = .integrated then calls
      else if b.cfg[2].getLsbD 0 = true ∧ Config.romMapped b.cfg[3] = true then .romEnable :: rom else rom := by
  cases p with
  | integrated => rfl
  | adapter =>
    simp only [romCalls, cfgEnable, b.cfgByte_eq (show 2 < 8 by decide), b.cfgByte_eq (show 3 < 8 by decide),
      reduceCtorEq, if_false, Bool.and_eq_true]
    split <;> rfl

theorem cfgWrite_of_le {i : Nat} (h : 2 ≤ i) (v : Byte) (s : State) :
    cfgWrite i v s = { s with
      blk := s.blk.configured i v
      ext := { s.ext with calls := romCalls s.params.variant (s.blk.configured i v) ++ s.ext.calls } } :=
  if_neg (Nat.not_lt.2 h)

/-- Two bytes side by side in a word. -/
theorem append_bytes_eq (a b : Byte) : a ++ b = (a.setWidth 16 <<< 8) ||| b.setWidth 16 := by
  rw [BitVec.append_def, BitVec.shiftLeftZeroExtend_eq, BitVec.setWidth'_eq]

end Sys2Proof.Machine

section
open Sys2Proof Sys2Proof.Machine

/-- Settles O14: the completion of the reset stands before the phase in every firing. -/
theorem pendingResetOverridesCommand : Obligations.PendingResetOverridesCommand := by
  intro four dev i hi s hd hr
  obtain ⟨p0, p1, p2, -, hexec⟩ := exec_command (rowOf_commands hi)
  rw [hexec, firing_reset hd hr, State.resetComplete_startFiring]

/-- Settles O15: a disarmed clock does not fire, and Idle has no body. -/
theorem idleFiringOnlyDisarms : Obligations.IdleFiringOnlyDisarms := by
  intro four dev i hi s
  obtain ⟨p0, p1, p2, -, hexec⟩ := exec_command (rowOf_commands hi)
  rw [hexec]
  exact ⟨firing_disarmed, firing_idle⟩

/-- Settles O16: every phase of a drive-only command begins with `Validate`, and every phase of an adapter-only one with
`AdapterOnly`. -/
theorem wrongTargetClassNotSupported : Obligations.WrongTargetClassNotSupported := by
  intro four dev s p hs hp
  refine ⟨fun hdev i hi hp1 => ?_, fun d hdev i hi => exec_adapterCommands_drive hi hs hp hdev⟩
  have hmem := List.mem_append_left [Instr.getDeviceConfigDrive0 four, .getDeviceConfigDrive1 four] hi
  have hval : ValidatesIn p i := by
    cases p with
    | idle => exact absurd rfl hp
    | p0 => exact (validatesIn_p0_and_p2 hmem).1
    | p1 => exact validatesIn_p1 (hp1 rfl)
    | p2 => exact (validatesIn_p0_and_p2 hmem).2
  exact hval.exec_adapter hs hdev

/-- Settles O21. -/
theorem readVerifySetup : Obligations.ReadVerifySetup := fun _ _ s hs =>
  (firing_runs hs).trans (readVerifySetup_outcome s)

/-- Settles O22: the RBA and the count checked are those that earlier commands left. -/
theorem seekSetup : Obligations.SeekSetup := fun _ _ s hs => (firing_runs hs).trans (seekSetup_outcome s)

/-- Settles O24. -/
theorem formatUnitSetup : Obligations.FormatUnitSetup := fun _ _ s hs =>
  (firing_runs hs).trans (formatUnitSetup_outcome s)

/-- Settles O26: the check is on naturals, and a sum within the last sector keeps every sector moved below it. -/
theorem rangeCheckBoundary : Obligations.RangeCheckBoundary := by
  intro four dev s d hs hd i hi rba count last
  obtain ⟨t, hexec, hphase, hrba, hcount⟩ := exec_setup_checked hi hs hd
  rw [State.loaded_checked] at hexec
  refine ⟨s.loaded_sum_lt, fun hover => ?_, fun hfits => ?_⟩
  · rw [hexec, if_pos hover]
  · rw [if_neg (Nat.not_lt.2 hfits)] at hexec
    exact ⟨t, hexec, hphase, hrba, hcount, fun k hk => by omega⟩

/-- Settles O27: the gate stands before the loop in each of the five data phases. -/
theorem dataPhaseWaitsForDmaEnable : Obligations.DataPhaseWaitsForDmaEnable := by
  intro four dev s hs hdma t
  refine ⟨fun d hd i hi => ?_, fun hdev i hi => ?_⟩
  all_goals
    simp only [List.mem_cons, List.not_mem_nil, or_false] at hi
  · obtain rfl | rfl | rfl := hi
    all_goals
      refine (firing_runs hs).trans ?_
      exact (congrArg (Flow.outcome s) (validate_startFiring hd _)).trans (dmaGate_startFiring_closed hdma _)
  · obtain rfl | rfl := hi
    all_goals
      refine (firing_runs hs).trans ?_
      exact (congrArg (Flow.outcome s) (adapterOnly_adapter (s := s.startFiring) _ hdev)).trans
        (dmaGate_startFiring_closed hdma _)

/-- Settles O36: the eight commands have one P2, `driveCompletion`. -/
theorem driveCommandCompletion : Obligations.DriveCommandCompletion := by
  intro four dev s d hs hd i hi
  have hdone := driveCompletion_outcome s
  rw [State.validated_of_addresses hd, State.completionWords_eq] at hdone
  simp only [completingCommands, List.mem_cons, List.not_mem_nil, or_false] at hi
  obtain rfl | rfl | rfl | rfl | rfl | rfl | rfl | rfl := hi <;> exact (firing_runs hs).trans hdone

/-- Settles O37. -/
theorem sectorBufferSetup : Obligations.SectorBufferSetup := by
  intro four dev s hs hdev i hi
  have hexec : exec i s = (bufferSetup s.startFiring).outcome s := by
    simp only [List.mem_cons, List.not_mem_nil, or_false] at hi
    obtain rfl | rfl := hi <;> exact firing_runs hs
  rw [hexec, bufferSetup_outcome hdev]
  exact ⟨fun hover => if_pos hover, fun hfits => if_neg (Nat.not_lt.2 hfits)⟩

/-- Settles O40. -/
theorem sectorBufferCompletion : Obligations.SectorBufferCompletion := by
  intro four dev s hs hdev i hi
  have hdone : (bufferCompletion s.startFiring).outcome s = .next (s.resolved [] 0x01 .adapter 0x1) := by
    rw [bufferCompletion, adapterOnly_adapter (s := s.startFiring) _ hdev, Flow.outcome_done,
      State.completeQuietly_startFiring]
  simp only [List.mem_cons, List.not_mem_nil, or_false] at hi
  obtain rfl | rfl := hi <;> exact (firing_runs hs).trans hdone

/-- Settles O44. -/
theorem deviceStatusReport : Obligations.DeviceStatusReport := by
  intro four dev s d hs hd hirq hbusy
  refine (firing_runs hs).trans ?_
  have hcode : s.blk.cmdDev.code = driveCode d := by rw [hd.target, Target.code]
  rw [← hcode]
  exact (congrArg (Flow.outcome s) (validate_startFiring hd _)).trans (query_clear_outcome hirq hbusy _)

/-- Settles O45. -/
theorem adapterConfigReport : Obligations.AdapterConfigReport := fun _ _ hs _ hirq hbusy =>
  (firing_runs hs).trans (query_clear_outcome hirq hbusy _)

/-- Settles O46: the last word of the report is the two bytes side by side. -/
theorem driveConfigReport : Obligations.DriveConfigReport := by
  intro four s d hs hd hirq hbusy i hi
  have hcode : s.blk.cmdDev.code = driveCode d := by rw [hd.target, Target.code]
  have hwords : s.startFiring.driveConfigReport d = [hdr 0x09 (driveCode d) 6, s.params.driveConfigW1,
      (s.drive d).totalSectors.extractLsb' 0 16, (s.drive d).totalSectors.extractLsb' 16 16, (s.drive d).tracks,
      ((s.drive d).spt.setWidth 16 <<< 8) ||| (s.drive d).heads.setWidth 16] := by
    simp only [State.driveConfigReport, State.startFiring_drive, State.startFiring_blk, State.startFiring_params, hcode,
      lowWord, highWord, append_bytes_eq]
  have hdone : (driveConfig s.startFiring).outcome s = _ :=
    (congrArg (Flow.outcome s) (validate_startFiring hd _)).trans (query_clear_outcome hirq hbusy _)
  rw [hwords] at hdone
  simp only [List.mem_cons, List.not_mem_nil, or_false] at hi
  obtain rfl | rfl := hi <;> exact (firing_runs hs).trans hdone

/-- Settles O47. -/
theorem positionInfoReport : Obligations.PositionInfoReport := by
  intro four dev s hs hdev hirq hbusy b
  refine (firing_runs hs).trans ?_
  refine (congrArg (Flow.outcome s) (adapterOnly_adapter (s := s.startFiring) _ hdev)).trans ?_
  have hwords : s.startFiring.positionWords = [(0x05EA : Word), b[1] ++ b[0], b[3] ++ b[2], b[5] ++ b[4], b[7] ++ b[6]] := by
    simp only [State.positionWords, State.startFiring_blk]
    rw [Block.cfgPair_eq _ (by decide), Block.cfgPair_eq _ (by decide), Block.cfgPair_eq _ (by decide),
      Block.cfgPair_eq _ (by decide)]
    rfl
  rw [← hwords]
  exact query_clear_outcome hirq hbusy _

/-- Settles O48. -/
theorem diagnosticReport : Obligations.DiagnosticReport := fun _ _ s hs hdev hirq hbusy =>
  (firing_runs hs).trans
    ((congrArg (Flow.outcome s) (adapterOnly_adapter (s := s.startFiring) _ hdev)).trans
      (query_clear_outcome hirq hbusy _))

/-- Settles O49: the check for a pending interrupt comes after the target checks. -/
theorem pendingInterruptFaultsQueries : Obligations.PendingInterruptFaultsQueries := by
  intro four dev s hs hpending
  refine ⟨fun d hd i hi => ?_, fun hdev i hi => ?_⟩
  all_goals
    simp only [List.mem_cons, List.not_mem_nil, or_false] at hi
  · obtain rfl | rfl | rfl := hi
    all_goals
      refine (firing_runs hs).trans ?_
      exact (congrArg (Flow.outcome s) (validate_startFiring hd _)).trans (query_pending_outcome hpending _)
  · have hadapter (body : Flow) := congrArg (Flow.outcome s) (adapterOnly_adapter (s := s.startFiring) body hdev)
    obtain rfl | rfl | rfl := hi
    · exact (firing_runs hs).trans (query_pending_outcome hpending _)
    · exact (firing_runs hs).trans ((hadapter _).trans (query_pending_outcome hpending _))
    · exact (firing_runs hs).trans ((hadapter _).trans (query_pending_outcome hpending _))

/-- Settles O50. -/
theorem configReadsAndIgnoredWrites : Obligations.ConfigReadsAndIgnoredWrites := by
  intro s
  refine ⟨fun i => ?_, ?_, fun i v hi => congrArg Host.Outcome.next (if_pos hi)⟩
  · rw [← s.blk.cfgByte_eq i.isLt]
    rfl
  · rw [← s.blk.cfgByte_eq (by decide)]
    rfl

/-- Settles O51: the decode is of the block with the byte stored, and the reset is a write of 0 to byte 2. -/
theorem configWriteDecodes : Obligations.ConfigWriteDecodes := by
  intro s after
  have hwrite : ∀ (i : Nat) (v : Byte), 2 ≤ i → cfgWrite i v s = after i v := by
    intro i v hi
    rw [cfgWrite_of_le hi, romCalls_append, Block.configured_eq]
  exact ⟨fun i v hi => ⟨congrArg Host.Outcome.next (hwrite _ v hi), congrArg Host.Outcome.next (hwrite _ v hi)⟩,
    congrArg Host.Outcome.next (hwrite 2 0x00 (Nat.le_refl 2))⟩

end
end

section
/-! PROOF. The data movement of Read (R262 to R266): a run of sectors up to the one at which it ends, and how it ends: at a word
refused (R232), inside a sector in flight (R233), past the end of the drive (R217) or at a failed storage call (R238). -/

namespace Sys2Proof.Machine

/-! Loops and their ends. -/

theorem Flow.andThen_assoc (x : Flow) (f g : State → Flow) :
    (x.andThen f).andThen g = x.andThen fun t => (f t).andThen g := by
  cases x <;> rfl

/-- A loop whose first `q` sectors go on runs its body once more, from where they stop. -/
theorem eachSector_after {body : State → Flow} {q n : Nat} {s t : State} (hq : q < n)
    (h : eachSector body q s = .cont t) : eachSector body n s = (body t).andThen (eachSector body (n - q - 1)) := by
  obtain ⟨k, rfl⟩ : ∃ k, n = q + (k + 1) := ⟨n - q - 1, by omega⟩
  rw [eachSector_add, h, Flow.andThen_cont, eachSector, show q + (k + 1) - q - 1 = k by omega]

theorem replicate_add_append {α : Type} (a b : Nat) (x : α) (xs : List α) :
    List.replicate (a + b) x ++ xs = List.replicate a x ++ (List.replicate b x ++ xs) := by
  rw [← List.replicate_append_replicate, List.append_assoc]

/-- A failure report in a firing that has accumulated a time: what `State.failed` says, and the time (R226). -/
theorem State.fail_eq_failed {u : State} (h : u.blk.clock = .disarmed) (e : ErrorCode) :
    u.fail e = { u.failed e with blk := { (u.failed e).blk with acc := u.blk.acc } } := by
  have hv : setBits statusIrq statusReport = 0x09 := by decide
  apply State.ext_eq <;> simp [State.failed, State.resolved, Block.reported, State.errorWords, State.header, h, hv,
    Reason.code]

/-- What a piece of data movement leaves of the fault (R402). -/
theorem Flow.Moves.done_fault {s t : State} {n : Nat} (h : (Flow.done t).Moves s n) : t.blk.fault = s.blk.fault := by
  obtain ⟨u, k, hm, -, -, rfl | rfl⟩ := h
  · rw [State.suspend_blk, hm.blk]
  · rw [State.defectiveBlock, State.fail_blk, Block.reported, hm.blk]

theorem Moved.fault {s t : State} (h : Moved s t) : t.blk.fault = s.blk.fault := by
  rw [h.blk]

/-! A run of sectors read. -/

section Read
variable {s : State} {d : DriveNo}

theorem State.sectorsRead_zero (h0 : s.blk.dataPos = 0) :
    s.sectorsRead d 0 s.ext.storageAnswers s.ext.pushAnswers = s := by
  have hb : s.blk = { s.blk with dataPos := 0 } := by rw [← h0]
  apply State.ext_eq <;> simp [State.sectorsRead, readCalls, readDelay]
  exact hb.symm

@[simp] theorem State.sectorsRead_drive (s : State) (d : DriveNo) (n : Nat) (ss : List StorageAnswer) (ps : List PushAnswer)
    (i : DriveNo) : (s.sectorsRead d n ss ps).drive i = s.drive i := s.drive_blk_ext _ _ i

/-- The sectors before the one at which a Read ends; with none of them, where they would lie is not asked. -/
theorem eachSector_read_before {q : Nat} {ss : List StorageAnswer} {ps : List PushAnswer} (h0 : s.blk.dataPos = 0)
    (hr : 0 < q → s.blk.rba.toNat + q ≤ (s.drive d).totalSectors.toNat)
    (hs : s.ext.storageAnswers = List.replicate q .ok ++ ss)
    (hp : s.ext.pushAnswers = List.replicate (256 * q) .ok ++ ps) :
    eachSector (readSectorStep d) q s = .cont (s.sectorsRead d q ss ps) := by
  obtain rfl | hq := Nat.eq_zero_or_pos q
  · obtain rfl : s.ext.storageAnswers = ss := hs
    obtain rfl : s.ext.pushAnswers = ps := hp
    rw [State.sectorsRead_zero h0, eachSector]
  · exact eachSector_read d q s ss ps h0 (hr hq) hs hp

/-- The RBA after `q` sectors, none of them past the end of the drive. -/
theorem rba_after {rba total : BitVec 32} {q : Nat} (h : 0 < q → rba.toNat + q ≤ total.toNat) :
    (rba + BitVec.ofNat 32 q).toNat = rba.toNat + q := by
  have ht := total.isLt
  have hr := rba.isLt
  refine toNat_add_ofNat _ _ ?_
  omega

end Read

/-! The three ways in which a Read that started a sector ends. -/

section ReadFirings
variable {s : State} {d : DriveNo} {four : Bool} {dev : BitVec 3} {ss : List StorageAnswer} {ps : List PushAnswer}

/-- A Read that is never refused (R263 to R266). -/
theorem exec_read_all (hm : s.MovesDrive d) (h0 : s.blk.dataPos = 0)
    (hr : s.blk.rba.toNat + s.sectorsLeft ≤ (s.drive d).totalSectors.toNat)
    (hs : s.ext.storageAnswers = List.replicate s.sectorsLeft .ok ++ ss)
    (hp : s.ext.pushAnswers = List.replicate (256 * s.sectorsLeft) .ok ++ ps) :
    exec (.read four dev) s = .next ((s.startFiring.sectorsRead d s.sectorsLeft ss ps).endPhase .p2
      (s.startFiring.sectorsRead d s.sectorsLeft ss ps).blk.acc) := by
  have hrun := eachSector_read d s.sectorsLeft s.startFiring ss ps h0 (by simpa using hr) hs hp
  rw [exec_read_moving hm, hrun, Flow.andThen_cont, Flow.outcome_done]

/-- A Read that moves `q` sectors and runs its body on the next one. -/
theorem exec_read_after {q : Nat} (hm : s.MovesDrive d) (h0 : s.blk.dataPos = 0) (hq : q < s.sectorsLeft)
    (hr : 0 < q → s.blk.rba.toNat + q ≤ (s.drive d).totalSectors.toNat)
    (hs : s.ext.storageAnswers = List.replicate q .ok ++ ss)
    (hp : s.ext.pushAnswers = List.replicate (256 * q) .ok ++ ps) :
    ∃ k : State → Flow, exec (.read four dev) s =
      ((readSectorStep d (s.startFiring.sectorsRead d q ss ps)).andThen k).outcome s := by
  have hrun := eachSector_read_before (s := s.startFiring) h0 (by simpa using hr) hs hp
  rw [exec_read_moving hm, eachSector_after hq hrun, Flow.andThen_assoc]
  exact ⟨_, rfl⟩

end ReadFirings

end Sys2Proof.Machine

section
open Sys2Proof Sys2Proof.Machine

/-- Settles O28: every sector of the run is read (`exec_read_all`). -/
theorem readDataPhaseMovesSectors : Obligations.ReadDataPhaseMovesSectors := by
  intro four dev s d ss ps n m hm h0 hle hr hs hp
  refine (exec_read_all hm h0 hr hs hp).trans (congrArg Host.Outcome.next ?_)
  apply State.ext_eq <;> simp [State.sectorsRead, State.sectorsLeft, add_sectorsLeft _ _ hle, h0, n, m]
  rfl

/-- Settles O29: after `q` sectors the word refused is in the next one; a sector in flight is not fetched again. -/
theorem readSuspendsAtRefusedWord : Obligations.ReadSuspendsAtRefusedWord := by
  constructor
  · intro four dev s d q r ss ps n m lba w hm h0 hq hr hle hs hp
    obtain ⟨k, hk⟩ := exec_read_after (four := four) (dev := dev) (ss := .ok :: ss)
      (ps := List.replicate r .ok ++ .noData :: ps) hm h0 hq (fun _ => by omega)
      (by rw [hs, replicate_add_append]; rfl) (by rw [hp, replicate_add_append])
    have hlba := rba_after (rba := s.blk.rba) (total := (s.drive d).totalSectors) (q := q) (fun _ => by omega)
    have hr' : (s.startFiring.sectorsRead d q (.ok :: ss) (List.replicate r .ok ++ .noData :: ps)).blk.rba.toNat <
        ((s.startFiring.sectorsRead d q (.ok :: ss) (List.replicate r .ok ++ .noData :: ps)).drive d).totalSectors.toNat := by
      rw [State.sectorsRead_drive, State.startFiring_drive]
      exact Nat.lt_of_le_of_lt (Nat.le_of_eq hlba) (by omega)
    rw [hk, readSectorStep_refused d _ r ss ps rfl hr' hr rfl rfl]
    refine congrArg Host.Outcome.next ?_
    apply State.ext_eq <;> simp [State.sectorsRead, State.suspend, State.fetched, State.pushed, State.drive_blk_ext,
      readDelay_succ, h0, m, lba, w, Nat.add_comm]
  · intro four dev s d r ps p w hm hp0 hp1 hlt hps
    obtain ⟨k, hk⟩ : ∃ k, s.sectorsLeft = k + 1 := ⟨s.sectorsLeft - 1, by simp only [State.sectorsLeft]; omega⟩
    have hstep := readSectorStep_refusedAgain (d := d) (s := s.startFiring) (r := r) (ps := ps) hp0 hp1 hps
    rw [exec_read_moving hm, hk, eachSector, hstep]
    refine congrArg Host.Outcome.next ?_
    apply State.ext_eq <;> simp [State.refusedAfter, State.suspend, State.pushed, p, w]

end
end

section
/-! PROOF. Resumption inside a sector (R233): the sector in flight is drained without a fetch, and the firing goes on as one at
the start of the next sector does. -/

namespace Sys2Proof.Machine

/-! How a data movement that ends its phase when it goes on to the end comes out. -/

/-- A data movement followed by the end of its phase: it leaves the fault as it was, or raises one (R402). -/
theorem Flow.Moves.endPhase {s : State} {n : Nat} {x : Flow} (h : x.Moves s n) (delay : State → Nat) :
    (∃ u, (x.andThen fun s1 => .done (s1.endPhase .p2 (delay s1))) = .done u ∧ u.blk.fault = s.blk.fault) ∨
    ∃ r u, (x.andThen fun s1 => .done (s1.endPhase .p2 (delay s1))) = .fatal r u ∧ x = .fatal r u := by
  cases x with
  | cont t => exact .inl ⟨_, rfl, h.1.fault⟩
  | done t => exact .inl ⟨_, rfl, h.done_fault⟩
  | fatal r t => exact .inr ⟨r, t, rfl, rfl⟩
  | stuck f => exact h.elim

/-! Where a Read does not fault. -/

/-- Words pushed leave the RBA. -/
theorem pushWords_rba {n : Nat} {s t : State} (h : pushWords n s = .cont t) : t.blk.rba = s.blk.rba := by
  induction n generalizing s with
  | zero =>
    obtain rfl : s = t := by simpa [pushWords] using h
    rfl
  | succ n ih =>
    have hb := dmaPush_blk s s.blk.dataWord
    rw [pushWords] at h
    generalize s.dmaPush s.blk.dataWord = x at h hb
    obtain ⟨a, s1⟩ := x
    cases a with
    | noData => simp at h
    | ok => rw [ih h, State.nextWord, hb]

/-- A sector fetched leaves the RBA. -/
theorem fetchSector_rba {d : DriveNo} {s t : State} (h : fetchSector d s = .cont t) : t.blk.rba = s.blk.rba := by
  rw [fetchSector] at h
  split at h
  · split at h
    · simp at h
    · have hb := (storageRead_frame s d s.blk.rba).1
      generalize s.storageRead d s.blk.rba = x at h hb
      obtain ⟨a, s1⟩ := x
      cases a with
      | none => simp at h
      | some w =>
        obtain rfl := Flow.cont.inj h
        have hblk : s1.blk = s.blk := hb
        simp only [hblk]
  · obtain rfl := Flow.cont.inj h
    rfl

/-- A sector read moves the RBA on by one. -/
theorem readSectorStep_rba {d : DriveNo} {s t : State} (h : readSectorStep d s = .cont t) : t.blk.rba = s.blk.rba + 1 := by
  rw [readSectorStep] at h
  cases hf : fetchSector d s with
  | cont u =>
    rw [hf, Flow.andThen_cont] at h
    cases hp : pushWords u.wordsLeft u with
    | cont v =>
      rw [hp, Flow.andThen_cont] at h
      obtain rfl := Flow.cont.inj h
      rw [State.sectorDone, pushWords_rba hp, fetchSector_rba hf]
    | _ => simp [hp] at h
  | _ => simp [hf] at h

/-- A sector on the drive is read without a fatal fault (R217). -/
theorem readSectorStep_not_fatal {d : DriveNo} {s : State} (hr : s.blk.rba.toNat < (s.drive d).totalSectors.toNat) :
    ∀ r t, readSectorStep d s ≠ .fatal r t := by
  refine Flow.andThen_not_fatal ?_ fun _ => Flow.andThen_not_fatal (pushWords_not_fatal _ _) fun _ _ _ h => nomatch h
  intro r t
  have hp : pastEnd s d = false := by simp [pastEnd, hr]
  rw [fetchSector, hp]
  repeat' split
  all_goals simp_all

/-- Sectors on the drive are read without a fatal fault (R217). -/
theorem eachSector_read_not_fatal {d : DriveNo} {n : Nat} {s : State}
    (hr : s.blk.rba.toNat + n ≤ (s.drive d).totalSectors.toNat) :
    ∀ r t, eachSector (readSectorStep d) n s ≠ .fatal r t := by
  induction n generalizing s with
  | zero => simp [eachSector]
  | succ n ih =>
    intro r t
    have htotal := (s.drive d).totalSectors.isLt
    have hstep := readSectorStep_not_fatal (d := d) (s := s) (by omega)
    have hmoves := readSectorStep_moves d s
    rw [eachSector]
    cases h : readSectorStep d s with
    | cont u =>
      rw [h] at hmoves
      have hd : (u.drive d).totalSectors = (s.drive d).totalSectors := by
        have := hmoves.1.descriptor d
        simp only [Drive.descriptor, Prod.mk.injEq] at this
        exact this.2.2.2.2.1
      have hrba : (s.blk.rba + 1).toNat = s.blk.rba.toNat + 1 := toNat_add_one _ (by omega)
      refine ih ?_ r t
      rw [hd, readSectorStep_rba h, hrba]
      omega
    | done u => simp
    | fatal r' u => exact absurd h (hstep r' u)
    | stuck f => simp

/-! The resumed Read. -/

/-- The words of a sector from the cursor on. -/
theorem toList_drop_rest (w : Sector) (p : Nat) : (w.toList.drop p).take (256 - p) = w.toList.drop p :=
  List.take_of_length_le (by simp)

/-- The state at the start of the next sector, the rest of the one in flight pushed (R233). -/
def State.resumedRead (s : State) (ps : List PushAnswer) : State :=
  { s with
    blk := { s.blk with dataPos := 0, sectorPos := s.blk.sectorPos + 1, rba := s.blk.rba + 1 }
    ext := { s.ext with
      pushAnswers := ps
      calls := ((s.blk.dataBuf.toList.drop s.blk.dataPos).map fun x => Call.dmaPush s.blk.dmaChannel x .ok).reverse ++
        s.ext.calls } }

theorem State.MovesDrive.resumedRead {s : State} {d : DriveNo} (h : s.MovesDrive d) (ps : List PushAnswer) :
    (s.resumedRead ps).MovesDrive d :=
  ⟨⟨h.runs.armed, h.runs.noReset, h.runs.inPhase⟩,
    ⟨h.drive.target, (s.drive_blk_ext _ _ d).symm ▸ h.drive.present⟩, h.dma⟩

/-- The sectors left after one more. -/
theorem sectorsLeft_succ {a b : BitVec 16} (h : a.toNat < b.toNat) :
    b.toNat - a.toNat = (b.toNat - (a + 1).toNat) + 1 := by
  have := b.isLt
  have hnext : (a + 1).toNat = a.toNat + 1 := toNat_add_one a (by omega)
  omega

/-- The data movement of a Read that is still to come in `t`. -/
def readRest (d : DriveNo) (t : State) : Flow :=
  (eachSector (readSectorStep d) t.sectorsLeft t.startFiring).andThen fun s1 => .done (s1.endPhase .p2 s1.blk.acc)

/-- A resumed Read does what a Read at the start of the next sector does, but for the block that a fault brings back. -/
theorem exec_read_resumed {s : State} {d : DriveNo} {four : Bool} {dev : BitVec 3} {ps : List PushAnswer}
    (hm : s.MovesDrive d) (h0 : 0 < s.blk.dataPos) (h1 : s.blk.dataPos < 256)
    (hlt : s.blk.sectorPos.toNat < s.blk.sectorCount.toNat)
    (hp : s.ext.pushAnswers = List.replicate (256 - s.blk.dataPos) .ok ++ ps) :
    exec (.read four dev) s = (readRest d (s.resumedRead ps)).outcome s := by
  have hleft : s.sectorsLeft = (s.resumedRead ps).sectorsLeft + 1 := sectorsLeft_succ hlt
  have hstart : (s.startFiring.pushed (256 - s.blk.dataPos) ps).sectorDone = (s.resumedRead ps).startFiring := by
    simp only [State.pushed, State.sectorDone, State.startFiring, State.resumedRead, toList_drop_rest]
  have hstep := readSectorStep_resumed (d := d) (s := s.startFiring) h0 h1 hp
  rw [exec_read_moving hm, hleft, eachSector, hstep, Flow.andThen_cont, readRest, ← hstart]
  rfl

end Sys2Proof.Machine

section
open Sys2Proof Sys2Proof.Machine

/-- Settles O30: both firings run one and the same movement (`readRest`); within the drive it does not fault. -/
theorem readResumesAtCursor : Obligations.ReadResumesAtCursor := by
  intro four dev s d ps hm h0 h1 hlt hp t
  have hs : exec (.read four dev) s = (readRest d t).outcome s := exec_read_resumed hm h0 h1 hlt hp
  have ht : exec (.read four dev) t = (readRest d t).outcome t := exec_read_moving (hm.resumedRead ps) four dev
  have hmoves : (eachSector (readSectorStep d) t.sectorsLeft t.startFiring).Moves t.startFiring t.sectorsLeft :=
    eachSector_moves _ _ _ fun _ u _ _ => readSectorStep_moves d u
  rw [hs, ht]
  obtain ⟨u, hu, hf⟩ | ⟨r, u, hu, hx⟩ := hmoves.endPhase fun s1 => s1.blk.acc
  · have hrest : readRest d t = .done u := hu
    rw [hrest]
    refine ⟨fun _ => ⟨rfl, u, rfl, hf⟩, fun hnone => ⟨u, rfl, ?_⟩⟩
    rw [if_pos (hf.trans hnone)]
    rfl
  · have hrest : readRest d t = .fatal r u := hu
    rw [hrest]
    refine ⟨fun hr => absurd hx (eachSector_read_not_fatal ?_ r u), fun _ => ⟨_, rfl, rfl⟩⟩
    have htotal := (s.drive d).totalSectors.isLt
    have hrba : t.startFiring.blk.rba.toNat = s.blk.rba.toNat + 1 := toNat_add_one _ (by omega)
    have hleft : s.sectorsLeft = t.sectorsLeft + 1 := sectorsLeft_succ hlt
    have hdrive : t.startFiring.drive d = s.drive d := s.drive_blk_ext _ _ d
    rw [hrba, hdrive]
    simp only [State.sectorsLeft] at hleft hr ⊢
    omega

end
end

section
/-! PROOF. The data movement of Write and Write-Verify (R271 to R274): a run of sectors stored up to the one at
which it ends. -/

namespace Sys2Proof.Machine

/-! The words of a run, cut at a sector. -/

/-- The words still to come, cut after `q` sectors: the first `p` of the first sector came before. -/
theorem drop_eq_sectors_append {α : Type} (ws : List α) {p q : Nat} (hp : p ≤ 256) (hq : 256 * q ≤ ws.length) :
    ws.drop p = (ws.take (256 * q)).drop p ++ (ws.drop (256 * q)).drop (if q = 0 then p else 0) := by
  by_cases h0 : q = 0
  · simp [h0]
  · rw [if_neg h0, List.drop_zero, ← List.drop_append_of_le_length (by simp; omega), List.take_append_drop]

theorem take_sectors_take {α : Type} (ws : List α) {p q : Nat} (hp : p ≤ 256) (hq : 0 < q) :
    (ws.take (256 * q)).take p = ws.take p := by
  rw [List.take_take, Nat.min_eq_left (by omega)]

/-- The last of `q` sectors' words. -/
theorem sectorOf_take (ws : List Word) {q : Nat} (hq : 0 < q) :
    sectorOf ((ws.take (256 * q)).drop (256 * (q - 1))) = sectorOf (ws.drop (256 * (q - 1))) := by
  rw [List.drop_take, show 256 * q - 256 * (q - 1) = 256 by omega]
  exact overlay_take _ _

/-- The words of a sector pulled up to the one missing, the first of them already in the data buffer. -/
theorem State.pulled_drop (s : State) (ws : List Word) (ps : List PullAnswer) (hl : s.blk.dataPos ≤ ws.length)
    (ht : ws.take s.blk.dataPos = s.blk.dataBuf.toList.take s.blk.dataPos) :
    s.pulled (ws.drop s.blk.dataPos) ps = { s with
      blk := { s.blk with dataBuf := overlay ws s.blk.dataBuf, dataPos := ws.length }
      ext := { s.ext with
        pullAnswers := ps,
        calls := ((ws.drop s.blk.dataPos).map fun x => Call.dmaPull s.blk.dmaChannel (.word x)).reverse ++ s.ext.calls } } := by
  have hpos : s.blk.dataPos + (ws.length - s.blk.dataPos) = ws.length := by omega
  simp only [State.pulled, overlay_pulled _ _ _ ht, List.length_drop, hpos]

/-- The state in which the DMA engine, asked for the words of a sector, has given `ws` and no more (R232). -/
def State.missingAfter (s : State) (ws : List Word) (ps : List PullAnswer) : State :=
  State.suspend { s with
    blk := { s.blk with dataBuf := overlay ws s.blk.dataBuf, dataPos := ws.length }
    ext := { s.ext with
      pullAnswers := ps,
      calls := .dmaPull s.blk.dmaChannel .noData ::
        ((ws.drop s.blk.dataPos).map fun x => Call.dmaPull s.blk.dmaChannel (.word x)).reverse ++ s.ext.calls } }

/-- A sector of a Write at a missing word, its first words already in the data buffer (R232). -/
theorem writeSectorStep_missingAfter (d : DriveNo) {s : State} {ws : List Word} {ps : List PullAnswer} (h256 : ws.length < 256)
    (hl : s.blk.dataPos ≤ ws.length) (ht : ws.take s.blk.dataPos = s.blk.dataBuf.toList.take s.blk.dataPos)
    (hq : s.ext.pullAnswers = (ws.drop s.blk.dataPos).map PullAnswer.word ++ .noData :: ps) :
    writeSectorStep d s = .done (s.missingAfter ws ps) := by
  rw [writeSectorStep_missing d s (ws.drop s.blk.dataPos) ps (by rw [List.length_drop]; omega) hq, s.pulled_drop ws ps hl ht]
  rfl

/-! A run of sectors stored. -/

section Write
variable {s : State} {d : DriveNo} {q : Nat} {ws : List Word} {ss : List StorageAnswer} {ps : List PullAnswer}

@[simp] theorem State.sectorsWritten_params : (s.sectorsWritten d q ws ss ps).params = s.params := by
  rw [State.sectorsWritten, State.setBacking_params]

@[simp] theorem State.sectorsWritten_blk : (s.sectorsWritten d q ws ss ps).blk = { s.blk with
    dataBuf := if q = 0 then s.blk.dataBuf else sectorOf (ws.drop (256 * (q - 1))),
    acc := s.blk.acc + writeDelay s.params d s.blk.rba q, dataPos := if q = 0 then s.blk.dataPos else 0,
    sectorPos := s.blk.sectorPos + BitVec.ofNat 16 q, rba := s.blk.rba + BitVec.ofNat 32 q } := by
  rw [State.sectorsWritten, State.setBacking_blk]

@[simp] theorem State.sectorsWritten_ext : (s.sectorsWritten d q ws ss ps).ext = { s.ext with
    storageAnswers := ss, pullAnswers := ps,
    calls := (writeCalls d s.blk.dmaChannel s.blk.rba ws s.blk.dataPos q).reverse ++ s.ext.calls } := by
  rw [State.sectorsWritten, State.setBacking_ext]

@[simp] theorem State.sectorsWritten_drive : (s.sectorsWritten d q ws ss ps).drive d =
    { s.drive d with backing := storeWords (s.drive d).backing s.blk.rba.toNat ws q } := by
  cases d <;> rfl

theorem State.sectorsWritten_zero : s.sectorsWritten d 0 ws s.ext.storageAnswers s.ext.pullAnswers = s := by
  cases d <;> simp [State.sectorsWritten, State.setBacking, writeCalls, writeDelay, storeWords, State.drive]

/-- The words after the sectors stored do not matter. -/
theorem State.sectorsWritten_take (hq : 0 < q) :
    s.sectorsWritten d q (ws.take (256 * q)) ss ps = s.sectorsWritten d q ws ss ps := by
  rw [State.sectorsWritten, State.sectorsWritten, sectorOf_take ws hq, writeCalls_take, storeWords_take]

/-- The sectors before the one at which a Write ends; with none of them, where they would lie is not asked. -/
theorem eachSector_write_before (hp : s.blk.dataPos ≤ 256)
    (hr : 0 < q → s.blk.rba.toNat + q ≤ (s.drive d).totalSectors.toNat) (hl : 256 * q ≤ ws.length)
    (ht : ws.take s.blk.dataPos = s.blk.dataBuf.toList.take s.blk.dataPos)
    (hs : s.ext.storageAnswers = List.replicate q .ok ++ ss)
    (hw : s.ext.pullAnswers = ((ws.take (256 * q)).drop s.blk.dataPos).map PullAnswer.word ++ ps) :
    eachSector (writeSectorStep d) q s = .cont (s.sectorsWritten d q ws ss ps) := by
  obtain rfl | hq := Nat.eq_zero_or_pos q
  · obtain rfl : s.ext.storageAnswers = ss := hs
    obtain rfl : s.ext.pullAnswers = ps := by simpa using hw
    rw [State.sectorsWritten_zero, eachSector]
  · rw [← State.sectorsWritten_take hq]
    exact eachSector_write d q s _ ss ps hp (by omega) (hr hq) (List.length_take_of_le hl)
      ((take_sectors_take ws hp hq).trans ht) hs hw

/-- The words of the next sector that came before: those under the cursor, if it is the first, else none. -/
theorem State.sectorsWritten_take_dataBuf (ht : ws.take s.blk.dataPos = s.blk.dataBuf.toList.take s.blk.dataPos) :
    (ws.drop (256 * q)).take (s.sectorsWritten d q ws ss ps).blk.dataPos =
      (s.sectorsWritten d q ws ss ps).blk.dataBuf.toList.take (s.sectorsWritten d q ws ss ps).blk.dataPos := by
  rw [State.sectorsWritten_blk]
  by_cases h0 : q = 0
  · simpa [h0] using ht
  · simp [h0]

end Write

/-! The firings. -/

section WriteFirings
variable {s : State} {d : DriveNo} {four : Bool} {dev : BitVec 3} {i : Instr} {q : Nat} {ws : List Word}
  {ss : List StorageAnswer} {ps : List PullAnswer}

/-- A Write that is never refused (R272). -/
theorem exec_write_all (hi : i ∈ [Instr.write four dev, .writeVerify four dev]) (hm : s.MovesDrive d)
    (hp : s.blk.dataPos < 256) (hn : s.sectorsLeft = 0 → s.blk.dataPos = 0)
    (hr : s.blk.rba.toNat + s.sectorsLeft ≤ (s.drive d).totalSectors.toNat) (hl : ws.length = 256 * s.sectorsLeft)
    (ht : ws.take s.blk.dataPos = s.blk.dataBuf.toList.take s.blk.dataPos)
    (hs : s.ext.storageAnswers = List.replicate s.sectorsLeft .ok ++ ss)
    (hw : s.ext.pullAnswers = (ws.drop s.blk.dataPos).map PullAnswer.word ++ ps) :
    exec i s = .next ((s.startFiring.sectorsWritten d s.sectorsLeft ws ss ps).endPhase .p2
      (s.startFiring.sectorsWritten d s.sectorsLeft ws ss ps).blk.acc) := by
  have hrun := eachSector_write d s.sectorsLeft s.startFiring ws ss ps (Nat.le_of_lt hp) hn (by simpa using hr) hl ht hs hw
  rw [exec_write_moving hm four dev i hi, hrun, Flow.andThen_cont, Flow.outcome_done]

/-- A Write that stores `q` sectors and runs its body on the next one. -/
theorem exec_write_after (hi : i ∈ [Instr.write four dev, .writeVerify four dev]) (hm : s.MovesDrive d)
    (hp : s.blk.dataPos ≤ 256) (hq : q < s.sectorsLeft)
    (hr : 0 < q → s.blk.rba.toNat + q ≤ (s.drive d).totalSectors.toNat) (hl : 256 * q ≤ ws.length)
    (ht : ws.take s.blk.dataPos = s.blk.dataBuf.toList.take s.blk.dataPos)
    (hs : s.ext.storageAnswers = List.replicate q .ok ++ ss)
    (hw : s.ext.pullAnswers = ((ws.take (256 * q)).drop s.blk.dataPos).map PullAnswer.word ++ ps) :
    ∃ k : State → Flow, exec i s =
      ((writeSectorStep d (s.startFiring.sectorsWritten d q ws ss ps)).andThen k).outcome s := by
  have hrun := eachSector_write_before (s := s.startFiring) hp (by simpa using hr) hl ht hs hw
  rw [exec_write_moving hm four dev i hi, eachSector_after hq hrun, Flow.andThen_assoc]
  exact ⟨_, rfl⟩

end WriteFirings

end Sys2Proof.Machine

section
open Sys2Proof Sys2Proof.Machine

/-- Settles O31: every sector of the run is stored (`exec_write_all`). -/
theorem writeDataPhaseStoresSectors : Obligations.WriteDataPhaseStoresSectors := by
  intro four dev s d ws ss ps n p m m' hm hp hn hle hr hl ht hs hw
  refine ⟨fun i hi => ?_, fun a ha => read_storeWords_outside _ _ _ _ _ ha⟩
  refine (exec_write_all hi hm hp hn hr hl ht hs hw).trans (congrArg Host.Outcome.next ?_)
  apply State.ext_eq
  · simp
  · simp [State.sectorsLeft, add_sectorsLeft _ _ hle, n]
    exact ⟨rfl, hn⟩
  · cases d <;> rfl
  · cases d <;> rfl
  · simp [State.sectorsLeft, n, p]

/-- Settles O32: after `q` sectors the word missing is in the next one. -/
theorem writeSuspendsAtMissingWord : Obligations.WriteSuspendsAtMissingWord := by
  intro four dev s d q r ws ss ps n p ch hm hpl hp hq h256 hr hl ht hs hw i hi
  have hlen : (ws.drop (256 * q)).length = r := by
    rw [List.length_drop]
    omega
  have hcur : (if q = 0 then p else 0) ≤ r := by
    split <;> omega
  rw [drop_eq_sectors_append ws (Nat.le_of_lt hp) (by omega : 256 * q ≤ ws.length), List.map_append, List.append_assoc] at hw
  obtain ⟨k, hk⟩ := exec_write_after hi hm (Nat.le_of_lt hp) hq (fun _ => by omega) (by omega) ht hs hw
  rw [hk, writeSectorStep_missingAfter d (ps := ps) (by rwa [hlen]) (by simpa [hlen] using hcur)
    (State.sectorsWritten_take_dataBuf (s := s.startFiring) ht) (by simp [p])]
  refine congrArg Host.Outcome.next ?_
  apply State.ext_eq
  · simp [State.missingAfter]
  · simp [State.missingAfter, hlen, Nat.add_comm]
  · cases d <;> rfl
  · cases d <;> rfl
  · simp [State.missingAfter, p, ch]

end
end

section
/-! PROOF. Storage: what a sector stored or zeroed reads as (R73, R289), and a data movement that ends past the end of the
drive (R217) or at a failed storage call (R238). -/

namespace Sys2Proof.Machine

/-- A zeroed sector reads as zeros. -/
theorem Memory.readSector_zero (m : Memory) {k n : Nat} (h : k < n) :
    Memory.readSector (Memory.zero m 0 (512 * n)) k = Vector.replicate 256 0 := by
  have hread : ∀ x, 512 * k ≤ x → x < 512 * (k + 1) → Memory.read (Memory.zero m 0 (512 * n)) x = 0 := by
    intro x _ _
    rw [Memory.read_zero, if_pos (by omega)]
  apply Vector.ext
  intro i hi
  simp only [Memory.readSector, Vector.getElem_ofFn, Vector.getElem_replicate, Memory.readWord, sectorBytes]
  rw [hread _ (by omega) (by omega), hread _ (by omega) (by omega)]
  rfl

/-- The data phase of Format-Unit, its zeroing call answered Ok (R289). -/
theorem exec_formatUnit_zeroed {s t : State} {d : DriveNo} (hs : s.Runs .p1) (hd : s.Addresses d)
    (h : s.startFiring.storageZero d 0 ((s.drive d).lastSector.toNat + 1) = (true, t)) (four : Bool) (dev : BitVec 3) :
    exec (.formatUnit four dev) s = .next (t.endPhase .p2 t.params.tBase) := by
  refine (firing_runs hs).trans ((congrArg (Flow.outcome s) (validate_startFiring hd _)).trans ?_)
  rw [State.startFiring_drive, h]
  rfl

/-- The data phase of Format-Unit, its zeroing call failed (R238, R289). -/
theorem exec_formatUnit_failed {s t : State} {d : DriveNo} (hs : s.Runs .p1) (hd : s.Addresses d)
    (h : s.startFiring.storageZero d 0 ((s.drive d).lastSector.toNat + 1) = (false, t)) (four : Bool) (dev : BitVec 3) :
    exec (.formatUnit four dev) s = .next t.defectiveBlock := by
  refine (firing_runs hs).trans ((congrArg (Flow.outcome s) (validate_startFiring hd _)).trans ?_)
  rw [State.startFiring_drive, h]
  rfl

/-- A Write that stores `q` sectors, pulls the words of the next one and comes to its store (R272). -/
theorem exec_write_filled {s : State} {d : DriveNo} {four : Bool} {dev : BitVec 3} {i : Instr} {q : Nat} {ws : List Word}
    {ss : List StorageAnswer} {ps : List PullAnswer} (hi : i ∈ [Instr.write four dev, .writeVerify four dev])
    (hm : s.MovesDrive d) (hp : s.blk.dataPos ≤ 256) (hq : q < s.sectorsLeft)
    (hr : 0 < q → s.blk.rba.toNat + q ≤ (s.drive d).totalSectors.toNat) (hl : ws.length = 256 * (q + 1))
    (ht : ws.take s.blk.dataPos = s.blk.dataBuf.toList.take s.blk.dataPos)
    (hs : s.ext.storageAnswers = List.replicate q .ok ++ ss)
    (hw : s.ext.pullAnswers = (ws.drop s.blk.dataPos).map PullAnswer.word ++ ps) :
    ∃ (rest : List PullAnswer) (k : State → Flow), exec i s =
      ((storeSector d ((s.startFiring.sectorsWritten d q ws ss rest).filled (ws.drop (256 * q)) ps)).andThen k).outcome s := by
  have hlen : (ws.drop (256 * q)).length = 256 := by
    rw [List.length_drop]
    omega
  have hcur : (if q = 0 then s.blk.dataPos else 0) ≤ 256 := by
    split <;> omega
  rw [drop_eq_sectors_append ws hp (by omega : 256 * q ≤ ws.length), List.map_append, List.append_assoc] at hw
  obtain ⟨k, hk⟩ := exec_write_after hi hm hp hq hr (by omega) ht hs hw
  rw [hk, writeSectorStep_filled d _ (ws.drop (256 * q)) ps (by simpa using hcur) hlen
    (State.sectorsWritten_take_dataBuf (s := s.startFiring) ht) (by simp), Flow.andThen_assoc]
  exact ⟨_, _, rfl⟩

/-- Where the sector after `q` stored ones lies on the drive. -/
theorem State.filled_sectorsWritten_drive {s : State} {d : DriveNo} {q : Nat} {ws vs : List Word} {ss : List StorageAnswer}
    {ps rest : List PullAnswer} : ((s.startFiring.sectorsWritten d q ws ss rest).filled vs ps).drive d =
      { s.drive d with backing := storeWords (s.drive d).backing s.blk.rba.toNat ws q } := by
  rw [State.filled, State.drive_blk_ext, State.sectorsWritten_drive, State.startFiring_drive, State.startFiring_blk]

/-- A memory that is the drive's own already. -/
theorem State.setBacking_self (s : State) (d : DriveNo) : s.setBacking d (s.drive d).backing = s := by cases d <;> rfl

theorem State.filled_sectorsWritten_rba {s : State} {d : DriveNo} {q : Nat} {ws vs : List Word} {ss : List StorageAnswer}
    {ps rest : List PullAnswer} : ((s.startFiring.sectorsWritten d q ws ss rest).filled vs ps).blk.rba =
      s.blk.rba + BitVec.ofNat 32 q := by
  rw [State.filled, State.sectorsWritten_blk, State.startFiring_blk]

end Sys2Proof.Machine

section
open Sys2Proof Sys2Proof.Machine

/-- Settles O43: by the laws of the sector store. -/
theorem sectorReadAfterWrite : Obligations.SectorReadAfterWrite := fun m k w h =>
  ⟨Memory.wf_writeSector k w h, Memory.readSector_writeSector m k w, Memory.read_writeSector m k w,
    Memory.read_writeSector_outside m k w⟩

/-- Settles O35: the zeroing call is the only one, and a zero leaves what lies after it. -/
theorem formatUnitZeroesStorage : Obligations.FormatUnitZeroesStorage := by
  intro four dev s d ss hs hd hans n
  refine ⟨Memory.zero (s.drive d).backing 0 (512 * n), ?_, fun k hk => Memory.readSector_zero _ hk, fun a ha => ?_⟩
  · rw [exec_formatUnit_zeroed hs hd (storageZero_ok (s := s.startFiring) d 0 _ hans), State.startFiring_drive]
    cases d <;> rfl
  · rw [Memory.read_zero, if_neg (by omega)]

/-- Settles O33: after `q` sectors the check of the drive end comes before the storage call. -/
theorem pastEndOfDriveFaults : Obligations.PastEndOfDriveFaults := by
  intro four dev s d q ss p ch rba total hm hq hend hr hs
  have hrba : total ≤ (s.blk.rba + BitVec.ofNat 32 q).toNat := Nat.le_trans hend (Nat.le_of_eq (rba_after hr).symm)
  refine ⟨fun ps h0 hps => ?_, fun ws ps hp hl ht hws i hi => ?_⟩
  · obtain ⟨k, hk⟩ := exec_read_after hm h0 hq hr hs hps
    rw [hk, readSectorStep_pastEnd rfl (by rwa [State.sectorsRead_drive, State.startFiring_drive])]
    refine congrArg Host.Outcome.next ?_
    apply State.ext_eq <;> simp [State.sectorsRead, State.faulted, raiseFatal, ch]
  · obtain ⟨rest, k, hk⟩ := exec_write_filled hi hm hp hq hr hl ht hs hws
    rw [hk, storeSector_pastEnd (by rwa [State.filled_sectorsWritten_drive, State.filled_sectorsWritten_rba])]
    refine congrArg Host.Outcome.next ?_
    apply State.ext_eq
    · simp [State.filled, State.faulted, raiseFatal]
    · simp [State.filled, State.faulted, raiseFatal]
    · cases d <;> rfl
    · cases d <;> rfl
    · simp [State.filled, State.faulted, raiseFatal, p, ch]

/-- Settles O34: after `q` sectors, and the words of the next one, storage answers Fail. -/
theorem storageFailureReported : Obligations.StorageFailureReported := by
  intro four dev s d found ss hs hd failedCall m ch p
  refine ⟨?_, ?_⟩
  · intro q hdma hq hr hans lba pos spent
    have hrba : lba.toNat < (s.drive d).totalSectors.toNat := by
      rwa [rba_after fun _ => Nat.le_of_lt hr]
    refine ⟨fun ps h0 hps => ?_, fun ws ps hp hl ht hws i hi => ?_⟩
    · obtain ⟨k, hk⟩ := exec_read_after ⟨hs, hd, hdma⟩ h0 hq (fun _ => by omega) hans hps
      rw [hk, readSectorStep_failed rfl (by rwa [State.sectorsRead_drive, State.startFiring_drive]) rfl]
      refine congrArg Host.Outcome.next ?_
      rw [State.defectiveBlock, State.fail_eq_failed rfl]
      apply State.ext_eq
      · simp [spent, failedCall, State.failed, State.resolved, State.sectorsRead]
      · simp [spent, failedCall, State.failed, State.resolved, State.sectorsRead, lba, pos, m]
        exact h0.symm
      · cases d <;> rfl
      · cases d <;> rfl
      · simp [spent, failedCall, State.failed, State.resolved, State.sectorsRead, lba, ch, m, State.postExt]
    · obtain ⟨rest, k, hk⟩ := exec_write_filled hi ⟨hs, hd, hdma⟩ hp hq (fun _ => by omega) hl ht hans hws
      rw [hk, storeSector_failed (ss := ss) (found := found)
        (by rwa [State.filled_sectorsWritten_drive, State.filled_sectorsWritten_rba]) (by simp [State.filled])]
      refine ⟨Memory.store (storeWords m s.blk.rba.toNat ws q) (512 * lba.toNat) (found.take 512),
        congrArg Host.Outcome.next ?_, fun a ha => Memory.read_store_outside _ _ _ _ ?_⟩
      · rw [State.defectiveBlock, State.fail_eq_failed (by simp [State.filled]), State.filled_sectorsWritten_drive,
          State.filled_sectorsWritten_rba]
        apply State.ext_eq
        · simp [spent, failedCall, State.failed, State.resolved, State.filled]
        · simp [spent, failedCall, State.failed, State.resolved, State.filled, lba, pos, m]
        · cases d <;> rfl
        · cases d <;> rfl
        · simp [spent, failedCall, State.failed, State.resolved, State.filled, lba, ch, p, State.postExt]
      · simp only [List.length_take]
        omega
  · intro hans
    have hcall := storageZero_fail (s := s.startFiring) d 0 ((s.drive d).lastSector.toNat + 1) hans
    refine ⟨_, (exec_formatUnit_failed hs hd hcall four dev).trans (congrArg Host.Outcome.next ?_), fun a ha =>
      Memory.read_store_outside m 0 (found.take (512 * ((s.drive d).lastSector.toNat + 1))) a ?_⟩
    · rw [State.defectiveBlock, State.fail_eq_failed (by simp)]
      apply State.ext_eq
      · simp [failedCall, State.failed, State.resolved]
      · simp [failedCall, State.failed, State.resolved]
      · cases d <;> rfl
      · cases d <;> rfl
      · simp [failedCall, State.failed, State.resolved, State.postExt]
    · simp only [List.length_take]
      omega

end
end

section
/-! PROOF. The sector buffer (R326, R330): its transfers up to the word at which they end, and what was written to it or to a
drive read back. -/

namespace Sys2Proof.Machine

/-! Sector-buffer write. -/

section BufferWrite
variable {s : State} {q : Nat} {ws : List Word} {ps : List PullAnswer}

/-- A sector of a Sector-buffer write at a missing word, its first words already in the data buffer (R232). -/
theorem bufferWriteStep_missingAfter (h256 : ws.length < 256) (hl : s.blk.dataPos ≤ ws.length)
    (ht : ws.take s.blk.dataPos = s.blk.dataBuf.toList.take s.blk.dataPos)
    (hq : s.ext.pullAnswers = (ws.drop s.blk.dataPos).map PullAnswer.word ++ .noData :: ps) :
    bufferWriteStep s = .done (s.missingAfter ws ps) := by
  rw [bufferWriteStep_missing s (ws.drop s.blk.dataPos) ps (by rw [List.length_drop]; omega) hq, s.pulled_drop ws ps hl ht]
  rfl

theorem State.bufferWritten_zero : s.bufferWritten 0 [] s.ext.pullAnswers = s := by
  simp [State.bufferWritten, storeWords]

/-- The block after the first `q` sectors of the words. -/
theorem State.bufferWritten_take_blk : (s.bufferWritten q (ws.take (256 * q)) ps).blk = { s.blk with
    dataBuf := if q = 0 then s.blk.dataBuf else sectorOf (ws.drop (256 * (q - 1))),
    dataPos := if q = 0 then s.blk.dataPos else 0, sectorPos := s.blk.sectorPos + BitVec.ofNat 16 q,
    sectorBuf := storeWords s.blk.sectorBuf s.blk.sectorPos.toNat ws q } := by
  rw [State.bufferWritten, storeWords_take]
  by_cases h0 : q = 0
  · simp only [h0, if_true]
  · simp only [h0, if_false, sectorOf_take ws (Nat.pos_of_ne_zero h0)]

/-- The sectors before the one at which a Sector-buffer write ends. -/
theorem eachSector_bufferWrite_before (hp : s.blk.dataPos < 256) (hk : s.blk.sectorPos.toNat + q ≤ 256)
    (hl : 256 * q ≤ ws.length) (ht : ws.take s.blk.dataPos = s.blk.dataBuf.toList.take s.blk.dataPos)
    (hw : s.ext.pullAnswers = ((ws.take (256 * q)).drop s.blk.dataPos).map PullAnswer.word ++ ps) :
    eachSector bufferWriteStep q s = .cont (s.bufferWritten q (ws.take (256 * q)) ps) := by
  obtain rfl | hq := Nat.eq_zero_or_pos q
  · obtain rfl : s.ext.pullAnswers = ps := by simpa using hw
    rw [Nat.mul_zero, List.take_zero, State.bufferWritten_zero, eachSector]
  · exact eachSector_bufferWrite q s _ ps hp (by omega) hk (List.length_take_of_le hl)
      ((take_sectors_take ws (Nat.le_of_lt hp) hq).trans ht) hw

/-- A Sector-buffer write that fills `q` sectors and runs its body on the next one. -/
theorem exec_sectorBufferWrite_after {four : Bool} {dev : BitVec 3} (hm : s.MovesBuffer) (hp : s.blk.dataPos < 256)
    (hq : q < s.sectorsLeft) (hc : s.blk.sectorCount.toNat ≤ 256) (hl : 256 * q ≤ ws.length)
    (ht : ws.take s.blk.dataPos = s.blk.dataBuf.toList.take s.blk.dataPos)
    (hw : s.ext.pullAnswers = ((ws.take (256 * q)).drop s.blk.dataPos).map PullAnswer.word ++ ps) :
    ∃ k : State → Flow, exec (.sectorBufferWrite four dev) s =
      ((bufferWriteStep (s.startFiring.bufferWritten q (ws.take (256 * q)) ps)).andThen k).outcome s := by
  have hk : s.startFiring.blk.sectorPos.toNat + q ≤ 256 := by
    rw [State.sectorsLeft] at hq
    change s.blk.sectorPos.toNat + q ≤ 256
    omega
  have hrun := eachSector_bufferWrite_before (s := s.startFiring) hp hk hl ht hw
  rw [exec_sectorBufferWrite_moving hm, eachSector_after hq hrun, Flow.andThen_assoc]
  exact ⟨_, rfl⟩

end BufferWrite

/-! Sector-buffer read. -/

/-- A Sector-buffer read that drains `q` sectors and runs its body on the next one. -/
theorem exec_sectorBufferRead_after {s : State} {q : Nat} {ps : List PushAnswer} {four : Bool} {dev : BitVec 3}
    (hm : s.MovesBuffer) (h0 : s.blk.dataPos = 0) (hq : q < s.sectorsLeft) (hc : s.blk.sectorCount.toNat ≤ 256)
    (hp : s.ext.pushAnswers = List.replicate (256 * q) .ok ++ ps) :
    ∃ k : State → Flow, exec (.sectorBufferRead four dev) s =
      ((bufferReadStep (s.startFiring.bufferRead q ps)).andThen k).outcome s := by
  have hk : s.startFiring.blk.sectorPos.toNat + q ≤ 256 := by
    rw [State.sectorsLeft] at hq
    change s.blk.sectorPos.toNat + q ≤ 256
    omega
  have hrun := eachSector_bufferRead q s.startFiring ps h0 hk hp
  rw [exec_sectorBufferRead_moving hm, eachSector_after hq hrun, Flow.andThen_assoc]
  exact ⟨_, rfl⟩

/-- Every sector of a Sector-buffer read is one of the buffer's. -/
theorem eachSector_bufferRead_moves {s : State} (hc : s.blk.sectorCount.toNat ≤ 256) :
    (eachSector bufferReadStep s.sectorsLeft s.startFiring).Moves s.startFiring s.sectorsLeft := by
  refine eachSector_moves _ _ _ fun j u hj hu => bufferReadStep_moves u ?_
  have hpos : (s.blk.sectorPos + BitVec.ofNat 16 j).toNat = s.blk.sectorPos.toNat + j := by
    rw [State.sectorsLeft] at hj
    exact toNat_add_ofNat _ _ (by omega)
  rw [State.sectorsLeft] at hj
  rw [hu, State.startFiring_blk, hpos, bufferSectors]
  omega

/-- The state at the start of the next sector of the buffer, the rest of the one in flight pushed (R233). -/
def State.resumedBufferRead (s : State) (ps : List PushAnswer) : State :=
  { s with
    blk := { s.blk with dataPos := 0, sectorPos := s.blk.sectorPos + 1 }
    ext := { s.ext with
      pushAnswers := ps
      calls := ((s.blk.dataBuf.toList.drop s.blk.dataPos).map fun x => Call.dmaPush s.blk.dmaChannel x .ok).reverse ++
        s.ext.calls } }

theorem State.MovesBuffer.resumedBufferRead {s : State} (h : s.MovesBuffer) (ps : List PushAnswer) :
    (s.resumedBufferRead ps).MovesBuffer :=
  ⟨⟨h.runs.armed, h.runs.noReset, h.runs.inPhase⟩, h.adapter, h.dma⟩

/-- The data movement of a Sector-buffer read that is still to come in `t`. -/
def bufferReadRest (t : State) : Flow :=
  (eachSector bufferReadStep t.sectorsLeft t.startFiring).andThen fun s1 => .done (s1.endPhase .p2 s1.params.tBase)

/-- A resumed Sector-buffer read does what one at the start of the next sector does. -/
theorem exec_sectorBufferRead_resumed {s : State} {four : Bool} {dev : BitVec 3} {ps : List PushAnswer} (hm : s.MovesBuffer)
    (h0 : 0 < s.blk.dataPos) (h1 : s.blk.dataPos < 256) (hlt : s.blk.sectorPos.toNat < s.blk.sectorCount.toNat)
    (hp : s.ext.pushAnswers = List.replicate (256 - s.blk.dataPos) .ok ++ ps) :
    exec (.sectorBufferRead four dev) s = (bufferReadRest (s.resumedBufferRead ps)).outcome s := by
  have hleft : s.sectorsLeft = (s.resumedBufferRead ps).sectorsLeft + 1 := sectorsLeft_succ hlt
  have hstart : (s.startFiring.pushed (256 - s.blk.dataPos) ps).bufferSectorDone = (s.resumedBufferRead ps).startFiring := by
    simp only [State.pushed, State.bufferSectorDone, State.startFiring, State.resumedBufferRead, toList_drop_rest]
  have hstep := bufferReadStep_resumed (s := s.startFiring) h0 h1 hp
  rw [exec_sectorBufferRead_moving hm, hleft, eachSector, hstep, Flow.andThen_cont, bufferReadRest, ← hstart]
  rfl

end Sys2Proof.Machine

section
open Sys2Proof Sys2Proof.Machine

/-- Settles O38: every sector is filled, or the word missing is in the one after `q`. -/
theorem sectorBufferWriteFills : Obligations.SectorBufferWriteFills := by
  refine ⟨?_, ?_⟩
  · intro four dev s ws ps n p m' hm hp hn hle hc hl ht hw
    refine ⟨?_, fun a ha => read_storeWords_outside _ _ _ _ _ (by omega)⟩
    have hrun := eachSector_bufferWrite s.sectorsLeft s.startFiring ws ps hp hn
      (by simp only [State.sectorsLeft, State.startFiring_blk]; omega) hl ht hw
    rw [exec_sectorBufferWrite_moving hm, hrun]
    refine congrArg Host.Outcome.next ?_
    apply State.ext_eq <;> simp [State.bufferWritten, State.advanced, State.sectorsLeft, add_sectorsLeft _ _ hle, n, p, m']
    exact ⟨rfl, rfl, ite_eq_right_iff.2 hn⟩
  · intro four dev s q r ws ps p hm hpl hp hq h256 hc hl ht hw
    have hlen : (ws.drop (256 * q)).length = r := by
      rw [List.length_drop]
      omega
    have hcur : (if q = 0 then p else 0) ≤ r := by
      split <;> omega
    have hsplit := drop_eq_sectors_append ws (Nat.le_of_lt hp) (by omega : 256 * q ≤ ws.length)
    rw [hsplit]
    rw [hsplit, List.map_append, List.append_assoc] at hw
    obtain ⟨k, hk⟩ := exec_sectorBufferWrite_after (four := four) (dev := dev) hm hp hq hc (by omega) ht hw
    have hblk := State.bufferWritten_take_blk (s := s.startFiring) (q := q) (ws := ws)
      (ps := ((ws.drop (256 * q)).drop (if q = 0 then p else 0)).map PullAnswer.word ++ .noData :: ps)
    have htake : (ws.drop (256 * q)).take (if q = 0 then p else 0) =
        (if q = 0 then s.blk.dataBuf else sectorOf (ws.drop (256 * (q - 1)))).toList.take (if q = 0 then p else 0) := by
      by_cases hq0 : q = 0
      · simpa [hq0] using ht
      · simp [hq0]
    rw [hk, bufferWriteStep_missingAfter (ps := ps) (by rwa [hlen]) (by rw [hblk]; rwa [hlen])
      (by rw [hblk]; exact htake) (by rw [hblk]; rfl)]
    refine congrArg Host.Outcome.next ?_
    rw [State.missingAfter, hblk, hlen]
    apply State.ext_eq <;> simp [State.bufferWritten, p]

/-- Settles O39: every sector is drained, or the word refused is in the one after `q` or in the one in flight. -/
theorem sectorBufferReadDrains : Obligations.SectorBufferReadDrains := by
  refine ⟨?_, ?_, ?_⟩
  · intro four dev s ps n k hm h0 hle hc hp
    have hrun := eachSector_bufferRead s.sectorsLeft s.startFiring ps h0
      (by simp only [State.sectorsLeft, State.startFiring_blk]; omega) hp
    rw [exec_sectorBufferRead_moving hm, hrun]
    refine congrArg Host.Outcome.next ?_
    apply State.ext_eq <;> simp [State.bufferRead, State.advanced, State.sectorsLeft, add_sectorsLeft _ _ hle, n, k, h0]
    rfl
  · intro four dev s q r ps k w hm h0 hq h256 hc hp
    obtain ⟨f, hf⟩ := exec_sectorBufferRead_after (four := four) (dev := dev) (ps := List.replicate r .ok ++ .noData :: ps)
      hm h0 hq hc (by rw [hp, replicate_add_append])
    have hpos : (s.blk.sectorPos + BitVec.ofNat 16 q).toNat = k + q := toNat_add_ofNat _ _ (by omega)
    rw [hf, bufferReadStep_refused (r := r) (ps := ps) rfl (Nat.lt_of_le_of_lt (Nat.le_of_eq hpos) (by omega)) h256 rfl]
    refine congrArg Host.Outcome.next ?_
    have hmod : (s.blk.sectorPos.toNat + q) % 65536 = k + q := Nat.mod_eq_of_lt (by omega)
    apply State.ext_eq <;> simp [State.refusedAfter, State.bufferRead, State.bufferLoaded, State.pushed, h0, hmod, w, k]
  · intro four dev s ps p w ch hm h0 h1 hlt hc
    refine ⟨?_, ?_⟩
    · intro hp t
      have hs : exec (.sectorBufferRead four dev) s = (bufferReadRest t).outcome s :=
        exec_sectorBufferRead_resumed hm h0 h1 hlt hp
      have ht : exec (.sectorBufferRead four dev) t = (bufferReadRest t).outcome t :=
        exec_sectorBufferRead_moving (hm.resumedBufferRead ps) four dev
      have hmoves := eachSector_bufferRead_moves (s := t) hc
      rw [hs, ht]
      obtain ⟨u, hu, hf⟩ | ⟨r, u, -, hx⟩ := hmoves.endPhase fun s1 => s1.params.tBase
      · have hrest : bufferReadRest t = .done u := hu
        rw [hrest]
        exact ⟨rfl, u, rfl, hf⟩
      · exact absurd hx (eachSector_not_fatal bufferReadStep_not_fatal _ _ r u)
    · intro r hr hp
      obtain ⟨k, hk⟩ : ∃ k, s.sectorsLeft = k + 1 := ⟨s.sectorsLeft - 1, by simp only [State.sectorsLeft]; omega⟩
      have hstep := bufferReadStep_refusedAgain (s := s.startFiring) (r := r) (ps := ps) h0 hr hp
      rw [exec_sectorBufferRead_moving hm, hk, eachSector, hstep]
      refine congrArg Host.Outcome.next ?_
      apply State.ext_eq <;> simp [State.refusedAfter, State.pushed, p, w, ch]

/-- Settles O41: the words stored are those that the sectors read hold (`sectorWords_storeWords`). -/
theorem sectorBufferReadsBack : Obligations.SectorBufferReadsBack := by
  intro four dev s n ws ps hm h0 hpos hcount hn hl hw
  obtain ⟨hwrite, -⟩ := sectorBufferWriteFills.1 four dev s ws ps hm (by omega) (fun _ => h0) (by rw [hpos]; simp)
    (by rwa [hcount]) (by rw [hpos, hcount]; simpa using hl) (by rw [h0]; simp) (by rw [h0]; simpa using hw)
  refine ⟨_, hwrite, fun u qs hu hu0 hupos hucount hbuf hpush => ?_⟩
  have hread := sectorBufferReadDrains.1 four dev u qs hu hu0 (by rw [hupos]; simp) (by rwa [hucount])
    (by rw [hupos, hucount]; simpa using hpush)
  refine ⟨_, hread, ?_⟩
  have hbuf' : u.blk.sectorBuf = storeWords s.blk.sectorBuf 0 ws n := by
    simpa [State.advanced, hpos, hcount] using hbuf
  simp only [State.advanced, hupos, hucount, hbuf', pushedWords_append, pushedWords_pushes]
  exact congrArg (pushedWords u.ext.calls ++ ·) (sectorWords_storeWords n s.blk.sectorBuf 0 ws hl)

/-- Settles O42: the words stored are those that the sectors read hold (`sectorWords_storeWords`). -/
theorem writtenSectorsReadBack : Obligations.WrittenSectorsReadBack := by
  intro four dev s d n ws ss ps hm h0 hpos hcount hr hl hs hw i hi
  have hleft : s.blk.sectorCount.toNat - s.blk.sectorPos.toNat = n := by rw [hpos, hcount]; simp
  obtain ⟨hwrite, -⟩ := writeDataPhaseStoresSectors four dev s d ws ss ps hm (by omega) (fun _ => h0) (by rw [hpos]; simp)
    (by rwa [hleft]) (by rwa [hleft]) (by rw [h0]; simp) (by rwa [hleft]) (by rw [h0]; simpa using hw)
  refine ⟨_, hwrite i hi, fun u rs qs hu hu0 hupos hucount hrba hdrive hans hpush => ?_⟩
  have hu' : u.drive d = { s.drive d with backing := storeWords (s.drive d).backing s.blk.rba.toNat ws n } := by
    rw [hdrive, State.setBacking_drive_same, State.drive_blk_ext, hleft]
  have huleft : u.blk.sectorCount.toNat - u.blk.sectorPos.toNat = n := by rw [hupos, hucount]; simp
  have hread := readDataPhaseMovesSectors four dev u d rs qs hu hu0 (by rw [hupos]; simp)
    (by rw [huleft, hrba, hu']; exact hr) (by rwa [huleft]) (by rwa [huleft])
  refine ⟨_, hread, ?_⟩
  have htotal := (s.drive d).totalSectors.isLt
  simp only [huleft, hrba, hu', pushedWords_append]
  rw [pushedWords_readCalls _ _ _ _ _ (by omega), sectorWords_storeWords _ _ _ _ hl]

end
end

section
/-! PROOF. What a command can leave, whatever the state and the answers (R48, R82, R402): `Flow.Ends`, proved for every phase
of every command. -/

namespace Sys2Proof.Machine
open Sys2Proof.Laws

/-- Where a piece of a phase ends: in a state of `C`, or at a fatal fault in a state of `F`. -/
def Flow.Ends (C F : State → Prop) : Flow → Prop
  | .cont t | .done t => C t
  | .fatal _ t => F t
  | .stuck _ => True

/-- The creation arguments, the drives and the fault are those of before. -/
structure State.Untouched (s t : State) : Prop where
  params : t.params = s.params
  drive0 : t.drive0 = s.drive0
  drive1 : t.drive1 = s.drive1
  fault : t.blk.fault = s.blk.fault

/-- No more than the block differs. -/
def State.BlockOnly (s t : State) : Prop := t = { s with blk := t.blk }

section Ends
variable {C F C' F' : State → Prop} {x : Flow}

theorem Flow.Ends.mono (h : x.Ends C F) (hc : ∀ t, C t → C' t) (hf : ∀ t, F t → F' t) : x.Ends C' F' := by
  cases x with
  | cont t => exact hc t h
  | done t => exact hc t h
  | fatal r t => exact hf t h
  | stuck f => trivial

theorem Flow.Ends.andThen {k : State → Flow} (h : x.Ends C F) (hk : ∀ t, C t → (k t).Ends C F) : (x.andThen k).Ends C F := by
  cases x with
  | cont t => exact hk t h
  | done t => exact h
  | fatal r t => exact h
  | stuck f => trivial

theorem eachSector_ends {body : State → Flow} (hb : ∀ t, C t → (body t).Ends C F) (n : Nat) {s : State} (hs : C s) :
    (eachSector body n s).Ends C F := by
  induction n generalizing s with
  | zero => exact hs
  | succ n ih => exact (hb s hs).andThen fun t ht => ih ht

/-! The checks. -/

variable {s : State}

theorem validate_ends {body : DriveNo → Flow} (hfail : ∀ e, C (s.fail e)) (hb : ∀ d, (body d).Ends C F) :
    (validate s body).Ends C F := by
  cases ht : s.blk.cmdDev with
  | adapter =>
    rw [validate_adapter body ht]
    exact hfail _
  | drive d =>
    cases hp : (s.drive d).present with
    | false =>
      rw [validate_absent body ht hp]
      exact hfail _
    | true =>
      rw [validate_present body ht hp]
      exact hb d

theorem adapterOnly_ends {body : Flow} (hfail : ∀ e, C (s.fail e)) (hb : body.Ends C F) : (adapterOnly s body).Ends C F := by
  cases ht : s.blk.cmdDev with
  | adapter =>
    rw [adapterOnly_adapter body ht]
    exact hb
  | drive d =>
    rw [adapterOnly_drive body ht]
    exact hfail _

theorem rangeCheck_ends {d : DriveNo} {body : Flow} (hfail : ∀ e, C (s.fail e)) (hb : body.Ends C F) :
    (rangeCheck s d body).Ends C F := by
  unfold rangeCheck
  split
  · exact hfail _
  · exact hb

theorem dmaGate_ends {body : Flow} (harm : C (s.arm s.params.tBase)) (hb : body.Ends C F) : (dmaGate s body).Ends C F := by
  unfold dmaGate
  split
  · exact hb
  · exact harm

theorem checkNoPendingIrq_ends {body : Flow} (hf : F s) (hb : body.Ends C F) : (checkNoPendingIrq s body).Ends C F := by
  unfold checkNoPendingIrq
  split
  · exact hf
  · exact hb

end Ends

/-! The operations that leave the drives and the fault. -/

section Untouched
variable {s t : State}

theorem State.Untouched.refl (s : State) : s.Untouched s := ⟨rfl, rfl, rfl, rfl⟩

theorem State.Untouched.trans {u : State} (h : s.Untouched t) (k : t.Untouched u) : s.Untouched u :=
  ⟨k.params.trans h.params, k.drive0.trans h.drive0, k.drive1.trans h.drive1, k.fault.trans h.fault⟩

theorem State.fail_untouched (s : State) (e : ErrorCode) : s.Untouched (s.fail e) :=
  ⟨by simp, by simp, by simp, by simp [Block.reported]⟩

theorem State.succeed_untouched (s : State) (ws : List Word) : s.Untouched (s.succeed ws) :=
  ⟨by simp, by simp, by simp, by simp [Block.reported]⟩

theorem State.completeQuietly_untouched (s : State) : s.Untouched s.completeQuietly :=
  ⟨by simp, by simp, by simp, by simp [Block.reported]⟩

theorem State.transferReady_untouched (s : State) (dev : Target) : s.Untouched (s.transferReady dev) :=
  ⟨by simp, by simp, by simp, by simp [Block.posted]⟩

theorem State.resetComplete_untouched (s : State) : s.Untouched s.resetComplete :=
  ⟨by simp, by simp, by simp, by simp [Block.reported]⟩

theorem State.loadTransfer_untouched (s : State) : s.Untouched s.loadTransfer := ⟨rfl, rfl, rfl, rfl⟩

theorem State.endPhase_untouched (s : State) (p : Phase) (n : Nat) : s.Untouched (s.endPhase p n) := ⟨rfl, rfl, rfl, rfl⟩

theorem State.arm_untouched (s : State) (n : Nat) : s.Untouched (s.arm n) := ⟨rfl, rfl, rfl, rfl⟩

end Untouched

/-! The phases that move no data: their fault comes before they have done anything else (R402). -/

section Plain
variable {s : State}

/-- A piece of a phase that leaves the drives, and changes no more than the block before a fault. -/
def Flow.Plain (s : State) (x : Flow) : Prop := x.Ends s.Untouched s.BlockOnly

theorem validate_plain {body : DriveNo → Flow} (hb : ∀ d, (body d).Plain s) : (validate s body).Plain s :=
  validate_ends s.fail_untouched hb

theorem adapterOnly_plain {body : Flow} (hb : body.Plain s) : (adapterOnly s body).Plain s :=
  adapterOnly_ends s.fail_untouched hb

theorem checkNoPendingIrq_plain {body : Flow} (hb : body.Plain s) : (checkNoPendingIrq s body).Plain s :=
  checkNoPendingIrq_ends rfl hb

theorem QueryBody.plain {body : State → Flow} (h : QueryBody body) (s : State) : (body s).Plain s := by
  cases h with
  | deviceStatus => exact validate_plain fun _ => checkNoPendingIrq_plain (s.succeed_untouched _)
  | adapterConfig => exact checkNoPendingIrq_plain (s.succeed_untouched _)
  | driveConfig => exact validate_plain fun d => checkNoPendingIrq_plain (s.succeed_untouched _)
  | positionInfo => exact adapterOnly_plain (checkNoPendingIrq_plain (s.succeed_untouched _))
  | diagnostic => exact adapterOnly_plain (checkNoPendingIrq_plain (s.succeed_untouched _))

theorem driveCompletion_plain (s : State) : (driveCompletion s).Plain s := validate_plain fun _ => s.succeed_untouched _

theorem bufferCompletion_plain (s : State) : (bufferCompletion s).Plain s :=
  adapterOnly_plain s.completeQuietly_untouched

theorem transferSetup_plain (s : State) : (transferSetup s).Plain s :=
  validate_plain fun _ => rangeCheck_ends (s := s.loadTransfer) (fun e => s.loadTransfer_untouched.trans (State.fail_untouched _ e))
    (s.loadTransfer_untouched.trans (State.transferReady_untouched _ _))

theorem readVerifySetup_plain (s : State) : (readVerifySetup s).Plain s :=
  validate_plain fun _ => rangeCheck_ends (s := s.loadTransfer) (fun e => s.loadTransfer_untouched.trans (State.fail_untouched _ e))
    (s.loadTransfer_untouched.trans (State.endPhase_untouched _ _ _))

theorem seekSetup_plain (s : State) : (seekSetup s).Plain s :=
  validate_plain fun _ => rangeCheck_ends s.fail_untouched (s.endPhase_untouched _ _)

theorem parkSetup_plain (s : State) : (parkSetup s).Plain s := validate_plain fun _ => ⟨rfl, rfl, rfl, rfl⟩

theorem formatUnitSetup_plain (s : State) : (formatUnitSetup s).Plain s := validate_plain fun _ => ⟨rfl, rfl, rfl, rfl⟩

theorem formatPrepareSetup_plain (s : State) : (formatPrepareSetup s).Plain s := validate_plain fun _ => ⟨rfl, rfl, rfl, rfl⟩

theorem formatPrepareData_plain (s : State) : (formatPrepareData s).Plain s := validate_plain fun _ => s.endPhase_untouched _ _

theorem unrecognized_plain (s : State) : (unrecognized s).Plain s := s.fail_untouched _

theorem bufferSetup_plain (s : State) : (bufferSetup s).Plain s := by
  refine adapterOnly_plain ?_
  simp only
  split
  · exact rfl
  · refine State.Untouched.trans ?_ (State.transferReady_untouched _ _)
    exact ⟨rfl, rfl, rfl, rfl⟩

end Plain

/-! The data movement that leaves the drives. -/

section Movement
variable {s t : State} {F : State → Prop}

theorem pushWords_ends (n : Nat) (h : s.Untouched t) : (pushWords n t).Ends s.Untouched F := by
  induction n generalizing t with
  | zero => exact h
  | succ n ih =>
    have hpush : t.Untouched (t.dmaPush t.blk.dataWord).2 := ⟨rfl, rfl, rfl, rfl⟩
    rw [pushWords]
    generalize t.dmaPush t.blk.dataWord = x at hpush
    obtain ⟨a, u⟩ := x
    cases a with
    | noData => exact (h.trans hpush).trans (u.arm_untouched _)
    | ok => exact ih ((h.trans hpush).trans ⟨rfl, rfl, rfl, rfl⟩)

theorem pullWords_ends (n : Nat) (h : s.Untouched t) : (pullWords n t).Ends s.Untouched F := by
  induction n generalizing t with
  | zero => exact h
  | succ n ih =>
    have hpull : t.Untouched t.dmaPull.2 := ⟨rfl, rfl, rfl, rfl⟩
    rw [pullWords]
    generalize t.dmaPull = x at hpull
    obtain ⟨a, u⟩ := x
    cases a with
    | noData => exact (h.trans hpull).trans (u.arm_untouched _)
    | word v => exact ih ((h.trans hpull).trans ⟨rfl, rfl, rfl, rfl⟩)

theorem fetchSector_ends (d : DriveNo) (h : s.Untouched t) (hf : ∀ u, s.Untouched u → F u) :
    (fetchSector d t).Ends s.Untouched F := by
  rw [fetchSector]
  split
  · split
    · exact hf t h
    · obtain ⟨hblk, hdrive⟩ := storageRead_frame t d t.blk.rba
      have hread : t.Untouched (t.storageRead d t.blk.rba).2 :=
        ⟨(storageRead_moved t d t.blk.rba).params, hdrive .drive0, hdrive .drive1, congrArg Block.fault hblk⟩
      generalize t.storageRead d t.blk.rba = x at hread
      obtain ⟨a, u⟩ := x
      cases a with
      | none => exact (h.trans hread).trans (u.fail_untouched _)
      | some w => exact (h.trans hread).trans ⟨rfl, rfl, rfl, rfl⟩
  · exact h

theorem readSectorStep_ends (d : DriveNo) (h : s.Untouched t) (hf : ∀ u, s.Untouched u → F u) :
    (readSectorStep d t).Ends s.Untouched F :=
  (fetchSector_ends d h hf).andThen fun _ hu => (pushWords_ends _ hu).andThen fun _ hv => hv.trans ⟨rfl, rfl, rfl, rfl⟩

theorem bufferReadStep_ends (h : s.Untouched t) : (bufferReadStep t).Ends s.Untouched F := by
  have hload : (loadFromBuffer t).Ends s.Untouched F := by
    rw [loadFromBuffer]
    split
    · split
      · exact h.trans ⟨rfl, rfl, rfl, rfl⟩
      · trivial
    · exact h
  exact hload.andThen fun _ hu => (pushWords_ends _ hu).andThen fun _ hv => hv.trans ⟨rfl, rfl, rfl, rfl⟩

theorem bufferWriteStep_ends (h : s.Untouched t) : (bufferWriteStep t).Ends s.Untouched F := by
  have hsave : ∀ u, s.Untouched u → (saveToBuffer u).Ends s.Untouched F := by
    intro u hu
    rw [saveToBuffer]
    split
    · exact hu.trans ⟨rfl, rfl, rfl, rfl⟩
    · trivial
  exact (pullWords_ends _ h).andThen fun u hu => (hsave u hu).andThen fun _ hv => hv.trans ⟨rfl, rfl, rfl, rfl⟩

theorem bufferReadData_plain (s : State) : (bufferReadData s).Plain s :=
  adapterOnly_plain (dmaGate_ends (s.arm_untouched _) ((eachSector_ends (fun _ => bufferReadStep_ends) _ (.refl s)).andThen
    fun _ ht => ht.trans (State.endPhase_untouched _ _ _)))

theorem bufferWriteData_plain (s : State) : (bufferWriteData s).Plain s :=
  adapterOnly_plain (dmaGate_ends (s.arm_untouched _) ((eachSector_ends (fun _ => bufferWriteStep_ends) _ (.refl s)).andThen
    fun _ ht => ht.trans (State.endPhase_untouched _ _ _)))

end Movement

/-! What the command of a code leaves. -/

/-- The codes of the commands that store: Write, Write-Verify and Format-Unit (R111). -/
def storingCodes : List (BitVec 5) := [0x02, 0x04, 0x16]

/-- The codes of the commands whose fault comes in the middle of data movement: Read, Write and Write-Verify (R217). -/
def movingCodes : List (BitVec 5) := [0x01, 0x02, 0x04]

/-- What the command of code `c` keeps of the drives and the creation arguments (R20, R48). -/
structure State.KeepsDrives (c : BitVec 5) (s t : State) : Prop where
  params : t.params = s.params
  descriptor : ∀ d, (t.drive d).descriptor = (s.drive d).descriptor
  drives : c ∉ storingCodes → t.drive0 = s.drive0 ∧ t.drive1 = s.drive1

/-- What the command of code `c` leaves that comes to its end. -/
structure State.Leaves (c : BitVec 5) (s t : State) : Prop where
  drives : s.KeepsDrives c t
  fault : t.blk.fault = s.blk.fault

/-- Where the command of code `c` raises a fatal fault. -/
structure State.FaultsAt (c : BitVec 5) (s t : State) : Prop where
  drives : s.KeepsDrives c t
  calls : s.ext.calls <:+ t.ext.calls
  blockOnly : c ∉ movingCodes → s.BlockOnly t

section Leaves
variable {s t : State} {c : BitVec 5}

theorem State.KeepsDrives.of_eq (hp : t.params = s.params) (h0 : t.drive0 = s.drive0) (h1 : t.drive1 = s.drive1) :
    s.KeepsDrives c t where
  params := hp
  descriptor d := by
    cases d
    · exact congrArg Drive.descriptor h0
    · exact congrArg Drive.descriptor h1
  drives _ := ⟨h0, h1⟩

theorem State.Untouched.keepsDrives (h : s.Untouched t) : s.KeepsDrives c t := .of_eq h.params h.drive0 h.drive1

theorem State.Untouched.leaves (h : s.Untouched t) : s.Leaves c t := ⟨h.keepsDrives, h.fault⟩

theorem State.BlockOnly.faultsAt (h : s.BlockOnly t) : s.FaultsAt c t where
  drives := .of_eq (h ▸ rfl) (h ▸ rfl) (h ▸ rfl)
  calls := by
    have hext : t.ext = s.ext := h ▸ rfl
    exact hext ▸ List.suffix_rfl
  blockOnly _ := h

theorem Flow.Plain.ends {x : Flow} (h : x.Plain s) : x.Ends (s.Leaves c) (s.FaultsAt c) :=
  h.mono (fun _ ht => ht.leaves) fun _ ht => ht.faultsAt

theorem noPhase_ends (s : State) : (noPhase s).Ends (s.Leaves c) (s.FaultsAt c) := trivial

theorem Moved.keepsDrives (h : Moved s t) (hc : c ∈ storingCodes) : s.KeepsDrives c t :=
  ⟨h.params, h.descriptor, fun hn => absurd hc hn⟩

theorem State.Leaves.untouched {u : State} (h : s.Leaves c t) (k : t.Untouched u) : s.Leaves c u where
  drives :=
    { params := k.params.trans h.drives.params
      descriptor := fun d => ((k.keepsDrives (c := c)).descriptor d).trans (h.drives.descriptor d)
      drives := fun hc => ⟨k.drive0.trans (h.drives.drives hc).1, k.drive1.trans (h.drives.drives hc).2⟩ }
  fault := k.fault.trans h.fault

/-- Data movement of a storing command. -/
theorem Flow.Moves.ends {x : Flow} {n : Nat} (h : x.Moves s n) (hs : c ∈ storingCodes) (hm : c ∈ movingCodes) :
    x.Ends (s.Leaves c) (s.FaultsAt c) := by
  cases x with
  | cont t => exact ⟨h.1.keepsDrives hs, h.1.fault⟩
  | done t =>
    obtain ⟨u, k, hu, -, -, rfl | rfl⟩ := h
    · exact State.Leaves.untouched ⟨hu.keepsDrives hs, hu.fault⟩ (u.arm_untouched _)
    · exact State.Leaves.untouched ⟨hu.keepsDrives hs, hu.fault⟩ (u.fail_untouched _)
  | fatal r t => exact ⟨h.keepsDrives hs, h.calls, fun hn => absurd hm hn⟩
  | stuck f => exact h.elim

theorem writeData_ends (hs : c ∈ storingCodes) (hm : c ∈ movingCodes) (s : State) :
    (writeData s).Ends (s.Leaves c) (s.FaultsAt c) :=
  validate_ends (fun e => (s.fail_untouched e).leaves) fun d => dmaGate_ends (s.arm_untouched _).leaves
    (((eachSector_moves _ s.sectorsLeft s fun _ t _ _ => writeSectorStep_moves d t).ends hs hm).andThen fun _ ht =>
      ht.untouched (State.endPhase_untouched _ _ _))

theorem readData_ends (s : State) : (readData s).Ends (s.Leaves 0x01) (s.FaultsAt 0x01) := by
  refine validate_ends (fun e => (s.fail_untouched e).leaves) fun d => dmaGate_ends (s.arm_untouched _).leaves
    (Flow.Ends.andThen ?_ fun _ ht => ht.untouched (State.endPhase_untouched _ _ _))
  have hmoves := eachSector_moves (readSectorStep d) s.sectorsLeft s fun _ t _ _ => readSectorStep_moves d t
  have hends : (eachSector (readSectorStep d) s.sectorsLeft s).Ends s.Untouched s.Untouched :=
    eachSector_ends (fun _ ht => readSectorStep_ends d ht fun _ hu => hu) _ (.refl s)
  cases hx : eachSector (readSectorStep d) s.sectorsLeft s with
  | cont t => exact State.Untouched.leaves (hx ▸ hends : (Flow.cont t).Ends s.Untouched s.Untouched)
  | done t => exact State.Untouched.leaves (hx ▸ hends : (Flow.done t).Ends s.Untouched s.Untouched)
  | fatal r t =>
    rw [hx] at hmoves hends
    exact ⟨State.Untouched.keepsDrives hends, hmoves.calls, fun hn => absurd (by decide) hn⟩
  | stuck f => trivial

theorem formatUnitData_ends (s : State) : (formatUnitData s).Ends (s.Leaves 0x16) (s.FaultsAt 0x16) := by
  refine validate_ends (fun e => (s.fail_untouched e).leaves) fun d => ?_
  have hzero : s.Leaves 0x16 (s.storageZero d 0 ((s.drive d).lastSector.toNat + 1)).2 :=
    ⟨(storageZero_moved s d _ _).keepsDrives (by decide), (storageZero_moved s d _ _).fault⟩
  generalize s.storageZero d 0 ((s.drive d).lastSector.toNat + 1) = x at hzero
  obtain ⟨ok, u⟩ := x
  cases ok with
  | false => exact hzero.untouched (u.fail_untouched _)
  | true => exact hzero.untouched (u.endPhase_untouched _ _)

/-- Every phase of every command. -/
theorem CommandPhases.ends {p0 p1 p2 : State → Flow} (h : CommandPhases c p0 p1 p2) (s : State) :
    (p0 s).Ends (s.Leaves c) (s.FaultsAt c) ∧ (p1 s).Ends (s.Leaves c) (s.FaultsAt c) ∧
      (p2 s).Ends (s.Leaves c) (s.FaultsAt c) := by
  cases h with
  | read => exact ⟨(transferSetup_plain s).ends, readData_ends s, (driveCompletion_plain s).ends⟩
  | write hc =>
    have hcode : c ∈ storingCodes ∧ c ∈ movingCodes := by
      simp only [List.mem_cons, List.not_mem_nil, or_false] at hc
      rcases hc with rfl | rfl <;> decide
    exact ⟨(transferSetup_plain s).ends, writeData_ends hcode.1 hcode.2 s, (driveCompletion_plain s).ends⟩
  | readVerify => exact ⟨(readVerifySetup_plain s).ends, noPhase_ends s, (driveCompletion_plain s).ends⟩
  | seek => exact ⟨(seekSetup_plain s).ends, noPhase_ends s, (driveCompletion_plain s).ends⟩
  | parkHeads => exact ⟨(parkSetup_plain s).ends, noPhase_ends s, (driveCompletion_plain s).ends⟩
  | formatUnit => exact ⟨(formatUnitSetup_plain s).ends, formatUnitData_ends s, (driveCompletion_plain s).ends⟩
  | formatPrepare =>
    exact ⟨(formatPrepareSetup_plain s).ends, (formatPrepareData_plain s).ends, (driveCompletion_plain s).ends⟩
  | bufferWrite => exact ⟨(bufferSetup_plain s).ends, (bufferWriteData_plain s).ends, (bufferCompletion_plain s).ends⟩
  | bufferRead => exact ⟨(bufferSetup_plain s).ends, (bufferReadData_plain s).ends, (bufferCompletion_plain s).ends⟩
  | query hq => exact ⟨(hq.plain s).ends, (hq.plain s).ends, (hq.plain s).ends⟩
  | unrecognized => exact ⟨(unrecognized_plain s).ends, (unrecognized_plain s).ends, (unrecognized_plain s).ends⟩

/-- The outcome of a phase: what it leaves, or the block of before with the fault (R402). -/
theorem Flow.Ends.outcome {x : Flow} (h : x.Ends (s.startFiring.Leaves c) (s.startFiring.FaultsAt c))
    (hx : x.outcome s = .next t) :
    s.startFiring.Leaves c t ∨ ∃ r u, s.startFiring.FaultsAt c u ∧ t = raiseFatal s r u := by
  cases x with
  | cont u =>
    obtain rfl := Host.Outcome.next.inj hx
    exact .inl h
  | done u =>
    obtain rfl := Host.Outcome.next.inj hx
    exact .inl h
  | fatal r u =>
    obtain rfl := Host.Outcome.next.inj hx
    exact .inr ⟨r, u, h, rfl⟩
  | stuck f => exact nomatch hx

/-- Every firing of a command: what it leaves, or the block of before with the fault (R402). -/
theorem exec_command_ends {i : Instr} (hi : (rowOf i).1 = .cmd0) (ht : exec i s = .next t) :
    s.Leaves (codeOf i) t ∨ ∃ r u, s.startFiring.FaultsAt (codeOf i) u ∧ t = raiseFatal s r u := by
  obtain ⟨p0, p1, p2, hphases, hexec⟩ := exec_command hi
  obtain ⟨h0, h1, h2⟩ := hphases.ends s.startFiring
  have hstart : s.Untouched s.startFiring := ⟨rfl, rfl, rfl, rfl⟩
  have hleaves : s.startFiring.Leaves (codeOf i) t → s.Leaves (codeOf i) t := fun h =>
    ⟨⟨h.drives.params, fun d => (h.drives.descriptor d).trans (by rw [State.startFiring_drive]), h.drives.drives⟩, h.fault⟩
  rw [hexec, firing] at ht
  split at ht
  · obtain rfl := Host.Outcome.next.inj ht
    exact .inl (State.Untouched.refl s).leaves
  · split at ht
    · obtain rfl := Host.Outcome.next.inj ht
      exact .inl (hstart.trans (State.resetComplete_untouched _)).leaves
    · split at ht
      · obtain rfl := Host.Outcome.next.inj ht
        exact .inl hstart.leaves
      · exact (h0.outcome ht).imp_left hleaves
      · exact (h1.outcome ht).imp_left hleaves
      · exact (h2.outcome ht).imp_left hleaves

end Leaves

/-! The rows of the codes. -/

/-- A command of a moving code is Read, Write or Write-Verify. -/
theorem mem_of_codeOf_movingCodes {i : Instr} (hi : (rowOf i).1 = .cmd0) (hc : codeOf i ∈ movingCodes) :
    ∃ four dev, i ∈ [Instr.read four dev, .write four dev, .writeVerify four dev] := by
  cases i
  case read four dev => exact ⟨four, dev, by simp⟩
  case write four dev => exact ⟨four, dev, by simp⟩
  case writeVerify four dev => exact ⟨four, dev, by simp⟩
  all_goals first
    | contradiction
    | exact absurd hc (by simp [codeOf, rowOf, movingCodes])

/-- A command of a storing code is Write, Write-Verify or Format-Unit. -/
theorem mem_of_codeOf_storingCodes {i : Instr} (hi : (rowOf i).1 = .cmd0) (hc : codeOf i ∈ storingCodes) :
    ∃ four dev, i ∈ [Instr.write four dev, .writeVerify four dev, .formatUnit four dev] := by
  cases i
  case write four dev => exact ⟨four, dev, by simp⟩
  case writeVerify four dev => exact ⟨four, dev, by simp⟩
  case formatUnit four dev => exact ⟨four, dev, by simp⟩
  all_goals first
    | contradiction
    | exact absurd hc (by simp [codeOf, rowOf, storingCodes])

/-- What a host access or a configuration call leaves of the fault: what it was, or one raised before it did anything else. -/
theorem Access.fault_cases {s t : State} (h : Access s t) : t.blk.fault = s.blk.fault ∨ ∃ r, t = s.faulted r := by
  cases h with
  | fault r => exact .inr ⟨r, rfl⟩
  | control v =>
    have hreset : (resetEdge s.blk.ctrl v s).blk.fault = s.blk.fault := by
      unfold resetEdge
      repeat' split
      all_goals rfl
    exact .inl ((congrArg Block.fault (irqEnaEdge_frame s.blk.ctrl v _).1).trans hreset)
  | pop v hlt =>
    refine .inl ?_
    simp only [Block.popped]
    split <;> rfl
  | _ => exact .inl rfl

end Sys2Proof.Machine

section
open Sys2Proof Sys2Proof.Laws Sys2Proof.Machine

/-- Settles O60: an access leaves the drives, and a command what its code keeps (`State.KeepsDrives`). -/
theorem onlyStoringCommandsChangeStorage : Obligations.OnlyStoringCommandsChangeStorage := by
  intro i s t h
  by_cases hi : (rowOf i).1 = .cmd0
  · have hdrives : s.KeepsDrives (codeOf i) t := by
      obtain hl | ⟨r, u, hu, rfl⟩ := exec_command_ends hi h
      · exact hl.drives
      · refine ⟨hu.drives.params, fun d => ?_, hu.drives.drives⟩
        have hd := hu.drives.descriptor d
        rw [State.startFiring_drive] at hd
        cases d <;> exact hd
    refine ⟨hdrives.params, hdrives.descriptor, fun hn => hdrives.drives fun hc => ?_⟩
    obtain ⟨four, dev, hmem⟩ := mem_of_codeOf_storingCodes hi hc
    obtain ⟨hw, hv, hf⟩ := hn four dev
    simp [hw, hv, hf] at hmem
  · obtain ⟨u, hu, haccess⟩ := exec_accesses hi s
    obtain rfl : u = t := Host.Outcome.next.inj (hu.symm.trans h)
    obtain ⟨hp, h0, h1⟩ := haccess.frame
    exact ⟨hp, (State.KeepsDrives.of_eq (c := 0) hp h0 h1).descriptor, fun _ => ⟨h0, h1⟩⟩

/-- Settles O59: an access faults before it does anything, a command as its code says (`State.FaultsAt`). -/
theorem fatalFaultRollsBack : Obligations.FatalFaultRollsBack := by
  refine ⟨?_, ?_⟩
  · intro i s t hnone h hfault
    by_cases hi : (rowOf i).1 = .cmd0
    · obtain hl | ⟨r, u, hu, rfl⟩ := exec_command_ends hi h
      · exact absurd (hl.fault.trans hnone) hfault
      · refine ⟨rfl, hu.calls, ?_⟩
        by_cases hc : codeOf i ∈ movingCodes
        · exact .inl (mem_of_codeOf_movingCodes hi hc)
        · refine .inr ⟨r, ?_⟩
          have hblock : u = { s.startFiring with blk := u.blk } := hu.blockOnly hc
          rw [hblock]
          rfl
    · obtain ⟨u, hu, haccess⟩ := exec_accesses hi s
      obtain rfl : u = t := Host.Outcome.next.inj (hu.symm.trans h)
      obtain hsame | ⟨r, rfl⟩ := haccess.fault_cases
      · exact absurd (hsame.trans hnone) hfault
      · exact ⟨rfl, List.suffix_rfl, .inr ⟨r, rfl⟩⟩
  · intro four dev s d q ss p ch rba m total hm hq hend hr hs
    obtain ⟨hread, hwrite⟩ := pastEndOfDriveFaults four dev s d q ss hm hq hend hr hs
    refine ⟨fun ps h0 hps => ⟨_, hread ps h0 hps, rfl, rfl, rfl, rfl⟩, fun ws ps hp hl ht hws i hi => ?_⟩
    refine ⟨_, hwrite ws ps hp hl ht hws i hi, ?_, ?_, fun e he => ?_, ?_⟩
    · rw [State.setBacking_blk]
      rfl
    · rw [State.setBacking_drive_same]
    · rw [State.setBacking_drive_other _ _ _ _ he]
      cases e <;> rfl
    · rw [State.setBacking_ext]
      rfl

end
end
